-- ==== Sys2Proof/Word.lean ====
section
/-!
DEFINITION. The words of the ULC-6410: the 16-bit word of the register window, the 8-bit word address
of a register, and the 48-bit time value.
-/
namespace Sys2Proof

/-- One word of the bus port (R185: every access moves one 16-bit word). -/
abbrev Word := BitVec 16

/-- A word address of the register window (R185: the 8-bit word address A0-A7). -/
abbrev Addr := BitVec 8

/-- A time value (Section 4.2: the 48-bit tick count). -/
abbrev Time := BitVec 48

/-- Numbers of input lines, output lines, reflex slots and delivery groups (Section 4.4). -/
abbrev LineNo := Fin 64
abbrev OutNo := Fin 32
abbrev SlotNo := Fin 16
abbrev GroupNo := Fin 9

end Sys2Proof
end

