-- ==== Sys2Proof/Config.lean ====
section
/-!
DEFINITION. The constants the spec fixes for the ULC-6410, and the one value it leaves open (assumption
log 26).
-/
namespace Sys2Proof.Config

/-- R51: the pool has 512 record slots. -/
def poolSlots : Nat := 512

/-- R129: the active list holds at most 256 entries. -/
def activeMax : Nat := 256

/-- R149: the staging list holds at most 64 operations. -/
def stagingMax : Nat := 64

/-- R159: an insertion is refused when it is due more than 2^46 ticks ahead. -/
def horizon : Nat := 2 ^ 46

/-- R34, R37: the interval counter and the age of a chatter window stop at 2^32 - 1. -/
def tickCounterMax : Nat := 2 ^ 32 - 1

/-- The open value (R34): the interval of an EDGE record whose onset precedes the line's release, where the
interval counter stands below the filter and "the counter's value minus f" is no count. Nothing is known of
it: DESIGN CHOICE, one value for each draw (assumption log 26). -/
opaque openInterval : Nat → BitVec 32

/-- R52: the system queue keeps a reserve of at least 8. -/
def systemReserveMin : Nat := 8

/-- R189: ID reads 6410h. -/
def partId : Word := 0x6410

end Sys2Proof.Config
end

