-- ==== Sys2Proof/Machine/Bank.lean ====
section
/-!
DEFINITION. `Bank α n`: a fixed number of like things (64 lines, 16 slots, 9 queues), held as a list
whose length is carried with it, so that the kernel can compute with it.
-/
namespace Sys2Proof.Machine

/-- `n` like things, numbered 0 to n - 1. -/
structure Bank (α : Type) (n : Nat) where
  items : List α
  size : items.length = n
  deriving DecidableEq, Repr

/-- The thing with number `i`. -/
def Bank.get {α : Type} {n : Nat} (b : Bank α n) (i : Fin n) : α :=
  b.items.get (i.cast b.size.symm)

/-- The bank with the thing numbered `i` replaced. -/
def Bank.set {α : Type} {n : Nat} (b : Bank α n) (i : Fin n) (x : α) : Bank α n :=
  ⟨b.items.set i x, by rw [List.length_set]; exact b.size⟩

/-- The bank whose thing `i` is `f i`. -/
def Bank.ofFn {α : Type} {n : Nat} (f : Fin n → α) : Bank α n :=
  ⟨List.ofFn f, List.length_ofFn⟩

/-- Every thing changed by a function of its number and itself. -/
def Bank.mapIdx {α : Type} {n : Nat} (f : Fin n → α → α) (b : Bank α n) : Bank α n :=
  Bank.ofFn fun i => f i (b.get i)

/-- Every thing changed alike. -/
def Bank.map {α : Type} {n : Nat} (f : α → α) (b : Bank α n) : Bank α n :=
  b.mapIdx fun _ x => f x

/-- `n` copies of one thing. -/
def Bank.fill {α : Type} {n : Nat} (x : α) : Bank α n :=
  ⟨List.replicate n x, List.length_replicate⟩

/-- Some number satisfies `p`. -/
def anyIdx (n : Nat) (p : Fin n → Bool) : Bool := (List.finRange n).any p

end Sys2Proof.Machine
end

