-- ==== Sys2Proof/Syntax.lean ====
section
/-!
DEFINITION. The commands of the ULC-6410: one constructor per row of spec/opcode_table.json, in the
table's order. A host command carries what the host writes, a pin event the level it leaves, a happening
of the part the line, slot or group it concerns.
-/
namespace Sys2Proof

/-- The steps of the part, each whole and indivisible (95_what_each_step_holds.md). -/
inductive Instr where
  /-- TICK (R1): the tick samples the 64 input lines and SYNC. `expiryFirst` is the order R17 leaves
  open: an expiry of the miss timer at this very tick is taken before the tick's pulse. -/
  | tick (lines : BitVec 64) (sync expiryFirst : Bool)
  /-- SLEW_ADJUSTMENT (R13). -/
  | slewAdjustment
  /-- MISS_TIMER_EXPIRY (R17). -/
  | missTimerExpiry
  /-- START (R4): a TBCTL write with the command START and the three switches (R8). -/
  | start (syncEnable stepAllow freezeOnHoldover : Bool)
  /-- STOP (R5), with the three switches (R8). -/
  | stop (syncEnable stepAllow freezeOnHoldover : Bool)
  /-- PRESET (R6), with the three switches (R8). -/
  | preset (syncEnable stepAllow freezeOnHoldover : Bool)
  /-- SWITCHES (R8): a TBCTL write that carries no command. -/
  | switches (syncEnable stepAllow freezeOnHoldover : Bool)
  /-- TIME_READ (R9): a read of TIME0. -/
  | timeRead
  /-- QUALIFICATION (R31) of one line. -/
  | qualification (line : LineNo)
  /-- RELEASE (R41) of one line. -/
  | release (line : LineNo)
  /-- DELAY_RUNS_OUT (R111) of one slot. -/
  | delayRunsOut (slot : SlotNo)
  /-- WIDTH_RUNS_OUT (R115) of one slot. -/
  | widthRunsOut (slot : SlotNo)
  /-- ARM (R118): an RFXCMD write with command 1. -/
  | arm (slot : SlotNo)
  /-- DISARM (R120): an RFXCMD write with command 2. -/
  | disarm (slot : SlotNo)
  /-- CLEAR (R119): an RFXCMD write with command 3. -/
  | clear (slot : SlotNo)
  /-- FIRING (R132) of the head of the active list. -/
  | firing
  /-- CANCEL (R152): an SCMD write with command 1. -/
  | cancel
  /-- CLEAR_ALL (R152): an SCMD write with command 2. -/
  | clearAll
  /-- DISCARD (R153): an SCMD write with command 3. -/
  | discard
  /-- COMMIT_NOW (R154): an SCMD write with command 4. -/
  | commitNow
  /-- COMMIT_AT (R155): an SCMD write with command 5. -/
  | commitAt
  /-- ABORT (R157): an SCMD write with command 6. -/
  | abort
  /-- COMMIT_TIME_REACHED (R156). -/
  | commitTimeReached
  /-- INSERT (R159): the next staged operation, an INSERT, is applied. -/
  | insert
  /-- CANCEL_OPERATION (R160): the next staged operation, a CANCEL, is applied. -/
  | cancelOperation
  /-- CLEAR_ALL_OPERATION (R161): the next staged operation, a CLEAR_ALL, is applied. -/
  | clearAllOperation
  /-- APPLICATION_FINISH (R164). -/
  | applicationFinish
  /-- CLAIM (R55): the allocator takes one claim. -/
  | claim
  /-- ACKNOWLEDGE (R73): a write of `sequence` to ACKg. -/
  | acknowledge (group : GroupNo) (sequence : Word)
  /-- FLUSH (R76): a write to GFLUSH. -/
  | flush (word : Word)
  /-- DELEN_WRITE (R71): a write to DELEN. -/
  | delenWrite (word : Word)
  /-- AGE_TIMER_RUNS_OUT (R80) of one group. -/
  | ageTimerRunsOut (group : GroupNo)
  /-- HOSTSET (R91): a write to word `half` of HOSTSET. -/
  | hostset (half : Fin 2) (word : Word)
  /-- HOSTCLR (R91): a write to word `half` of HOSTCLR. -/
  | hostclr (half : Fin 2) (word : Word)
  /-- FRZN_FALL (R97): FRZn changes from high to low. -/
  | frznFall
  /-- FRZN_RISE (R97): FRZn changes from low to high. -/
  | frznRise
  /-- FREEZE (R98): an FRZCTL write with command 1. -/
  | freeze
  /-- UNFREEZE (R100): an FRZCTL write with command 2. -/
  | unfreeze
  /-- READ (R196): a TCMD write with command 1. -/
  | read
  /-- WRITE (R197): a TCMD write with command 2. -/
  | write
  /-- APPEND (R198): a TCMD write with command 3. -/
  | append
  /-- RUN (R171): a MODE write with command 1. -/
  | run
  /-- HALT (R172): a MODE write with command 2. -/
  | halt
  /-- SOFT_RESET (R174): a write of 1 to SOFTRST. -/
  | softReset
  /-- DEVICE_RESET (R177): RESETn takes the level `resetn`. Low (false; power-on too) holds the part in
  reset, high (true) ends the reset. -/
  | deviceReset (resetn : Bool)
  /-- ERRFLAG_CLEAR (R179): a write to ERRFLAG. -/
  | errflagClear (word : Word)
  /-- REGISTER_WRITE (R188): a write of `word` to the word address `addr`. -/
  | registerWrite (addr : Addr) (word : Word)
  deriving DecidableEq, Repr

/-- The registers of the map (Section 10.2). A register of several words carries the number of the word,
one of several groups the group. -/
inductive Register where
  | id | mode | softrst | errflag | erren | refcode | next | wsel
  | win (word : Fin 8)
  | ack (group : GroupNo)
  | gflush | delen | girqen | gattn | gpres
  | gstat (group : GroupNo)
  | tbctl | tbstat
  | time (word : Fin 3)
  | epoch | tickdiv
  | syncper (word : Fin 2)
  | synctol | slewlim | synclim | lasterr
  | tbset (word : Fin 3)
  | inlvl (word : Fin 4)
  | insup (word : Fin 4)
  | outdrv (word : Fin 2)
  | outclm (word : Fin 2)
  | hostset (word : Fin 2)
  | hostclr (word : Fin 2)
  | frzctl | rfxcmd
  | rfxst (word : Fin 4)
  | scmd | sarg | sstat | scount
  | cat (word : Fin 3)
  | tsel | tidx | tcmd
  | tdata (word : Fin 16)
  deriving DecidableEq, Repr

end Sys2Proof
end

