-- ==== Sys2Proof/Machine/State.lean ====
section
/-!
DEFINITION. The state of the ULC-6410 as plain data, block by block, and the state after device reset.
Views that follow from the state (delivery state, attention, freeze state, driven values, IRQn, free
slots) are functions of it and are not stored twice (assumption log 21).
-/
namespace Sys2Proof.Machine

/-! ### Timebase (Chapter 1) -/

/-- The four states of the Timebase (Section 1.3). -/
inductive TimebaseState where
  | stopped | free | locked | holdover
  deriving DecidableEq, Repr

/-- The advance of the counter at the coming tick (R2): normal by one, held by zero, doubled by two. -/
inductive Advance where
  | normal | held | doubled
  deriving DecidableEq, Repr

/-- Pending slew adjustments (R13): `ahead` the counter is ahead and ticks are held, otherwise doubled;
`left` how many are pending; `spacing` the ticks between two; `next` the ticks to the next one. -/
structure Slew where
  ahead : Bool
  left : Nat
  spacing : Nat
  next : Nat
  deriving DecidableEq, Repr

/-- The Timebase. -/
structure Timebase where
  state : TimebaseState := .stopped
  counter : Time := 0
  epoch : BitVec 4 := 0
  tickDiv : Word := 10
  period : BitVec 24 := 1000000
  tolerance : Word := 10
  slewLimit : BitVec 12 := 100
  missLimit : BitVec 4 := 3
  badLimit : BitVec 4 := 3
  syncEnable : Bool := false
  stepAllow : Bool := false
  freezeOnHoldover : Bool := false
  missCount : BitVec 4 := 0
  badCount : BitVec 4 := 0
  missReached : Bool := false
  badReached : Bool := false
  slew : Option Slew := none
  /-- the advance a SLEW_ADJUSTMENT has chosen for the coming tick (assumption log 7) -/
  advance : Advance := .normal
  /-- ticks the miss timer has still to run; none while it is stopped -/
  missTimer : Option Nat := none
  /-- the last phase error (R11) -/
  lastError : Int := 0
  /-- the time read latch (R9) -/
  latch : Time := 0
  tbset : Time := 0
  /-- the SYNC level of the most recent sample; none until the first tick after START (R10) -/
  syncLevel : Option Bool := none
  /-- the time value, the epoch and the timebase state of the most recent tick (R20, R50); 0, 0 and STOPPED
  until the first tick after device reset -/
  tickTime : Time := 0
  tickEpoch : BitVec 4 := 0
  tickState : TimebaseState := .stopped
  deriving DecidableEq, Repr

/-! ### Input Unit (Chapter 2) -/

/-- Edge select of a line (Section 2.1). -/
inductive EdgeSelect where
  | rise | fall | both
  deriving DecidableEq, Repr

/-- The four line states (Section 2.2). -/
inductive LineState where
  | off | idle | live | suppressed
  deriving DecidableEq, Repr

/-- The configured fields of a line table entry, with their defaults (Section 2.1). -/
structure LineConfig where
  on : Bool := false
  edge : EdgeSelect := .both
  filter : BitVec 4 := 0
  urgent : Bool := false
  chatterLimit : BitVec 8 := 0
  chatterWindow : BitVec 24 := 1000
  quietTime : BitVec 24 := 1000
  deriving DecidableEq, Repr

/-- The onset of a change (R30): time value, epoch and timebase state of the tick at which it was first
sampled, and whether a step has rebased it (R42). -/
structure Onset where
  time : Time
  epoch : BitVec 4
  state : TimebaseState
  rebased : Bool
  deriving DecidableEq, Repr

/-- The qualifier of a line (R29). -/
inductive Qualifier where
  | stable
  | pending (level : Bool) (onset : Onset) (count : Nat)
  deriving DecidableEq, Repr

/-- An open chatter window (R37). -/
structure ChatterWindow where
  count : Nat
  age : Nat
  deriving DecidableEq, Repr

/-- One input line: its entry and its working state. -/
structure Line where
  config : LineConfig := {}
  state : LineState := .off
  /-- the level has been established by the first sample since the line entered LIVE (R27) -/
  established : Bool := false
  level : Bool := false
  qualifier : Qualifier := .stable
  interval : Nat := 0
  firstMark : Bool := false
  window : Option ChatterWindow := none
  /-- ticks the quiet timer has still to run; none while it is stopped -/
  quiet : Option Nat := none
  seen : Nat := 0
  levelBefore : Bool := false
  lastOnset : Time := 0
  deriving DecidableEq, Repr

/-! ### Record Pool and Delivery Unit (Chapters 3 and 4) -/

/-- The kinds of record (R46). Kind NONE is what the window shows when nothing is presented. -/
inductive Kind where
  | edge | level | action | reflexOn | reflexOff | commit | suppress | release | sync | freeze
  deriving DecidableEq, Repr

/-- The flags of a record (R47). -/
structure RecFlags where
  rise : Bool := false
  first : Bool := false
  sat : Bool := false
  level : Bool := false
  urgent : Bool := false
  stepped : Bool := false
  unsync : Bool := false
  late : Bool := false
  deriving DecidableEq, Repr

/-- An event record (R46). -/
structure Record where
  kind : Kind
  epoch : BitVec 4
  source : BitVec 6 := 0
  seq : Word := 0
  time : Time
  interval : BitVec 32 := 0
  tag : Word := 0
  detail : Word := 0
  gap : BitVec 8 := 0
  flags : RecFlags := {}
  deriving DecidableEq, Repr

/-- The key of a record (R57). -/
structure Key where
  time : Time
  source : BitVec 6
  deriving DecidableEq, Repr

/-- Who offers a claim: the block, and for the Reflex Unit and the Input Unit the slot or line (R55). -/
inductive ClaimSource where
  | timebase | output | schedule
  | reflex (slot : SlotNo)
  | input (line : LineNo)
  deriving DecidableEq, Repr

/-- A record claim waiting at the allocator; `atTick` tells a claim offered at a tick from one offered
at a happening that is not a tick (R55). -/
structure Claim where
  source : ClaimSource
  atTick : Bool
  record : Record
  deriving DecidableEq, Repr

/-- Overflow policy (R52). -/
inductive Policy where
  | dropNew | dropOldest
  deriving DecidableEq, Repr

/-- A quota record (R52), with the defaults of the input groups. -/
structure Quota where
  reserve : Word := 32
  limit : Word := 128
  policy : Policy := .dropNew
  threshold : Word := 1
  age : Word := 0
  deriving DecidableEq, Repr

/-- One queue of the pool: its records from the head, how many of them belong to earlier runs (the run
start, R58), its high-water key (R60), its pending-loss count (R62) and its quota. -/
structure Queue where
  records : List Record := []
  runStart : Nat := 0
  highWater : Option Key := none
  pendingLoss : BitVec 8 := 0
  quota : Quota := {}
  deriving DecidableEq, Repr

/-- What the Delivery Unit holds for a group. The delivery state and the attention flag follow from it
and the queue (R67, R79). -/
structure Group where
  nextSeq : Word := 1
  presented : Option Word := none
  deliver : Bool := true
  irqEnable : Bool := false
  /-- ticks the attention age timer has still to run; none while it is stopped -/
  ageTimer : Option Nat := none
  ageMark : Bool := false
  deriving DecidableEq, Repr

/-- The delivery states (R67). -/
inductive DeliveryState where
  | empty | waiting | presented
  deriving DecidableEq, Repr

/-! ### Output Stage (Chapter 5) -/

/-- The owner of an output line (Section 5.1). -/
inductive Owner where
  | host | schedule | reflex
  deriving DecidableEq, Repr

/-- One output line. -/
structure OutLine where
  owner : Owner := .host
  safe : Bool := false
  drive : Bool := false
  claimed : Bool := false
  deriving DecidableEq, Repr

/-- The set of freeze causes (Section 5.4). -/
structure Causes where
  pin : Bool := false
  command : Bool := false
  holdover : Bool := false
  deriving DecidableEq, Repr

/-- One freeze cause. -/
inductive Cause where
  | pin | command | holdover
  deriving DecidableEq, Repr

/-! ### Reflex Unit (Chapter 6) -/

/-- Trigger edge of a slot (Section 6.1). -/
inductive TriggerEdge where
  | rise | fall | either
  deriving DecidableEq, Repr

/-- Retrigger policy of a slot (Section 6.1). -/
inductive Retrigger where
  | ignore | restart | extend
  deriving DecidableEq, Repr

/-- A gate: the gate line and its required level (Section 6.1). -/
structure Gate where
  line : LineNo
  level : Bool
  deriving DecidableEq, Repr

/-- The configured fields of a slot, with their defaults (Section 6.1). -/
structure SlotConfig where
  trigger : LineNo := 0
  edge : TriggerEdge := .rise
  gate : Option Gate := none
  delay : BitVec 24 := 0
  width : BitVec 24 := 0
  mask : BitVec 32 := 0
  policy : Retrigger := .ignore
  countLimit : BitVec 8 := 0
  report : Bool := false
  deriving DecidableEq, Repr

/-- The states of a slot (Section 6.2). -/
inductive SlotState where
  | disarmed | armed | delaying | active | holding
  deriving DecidableEq, Repr

/-- One reflex slot. `edge` is the triggering edge (true RISE). -/
structure Slot where
  config : SlotConfig := {}
  state : SlotState := .disarmed
  edge : Option Bool := none
  /-- ticks the duration counter has still to run; none while it is stopped -/
  timer : Option Nat := none
  firings : Word := 0
  deriving DecidableEq, Repr

/-! ### Schedule Unit (Chapters 7 and 8) -/

/-- What a firing does; the value is present for WRITE only (Section 7.1). -/
inductive Action where
  | set | clear | toggle
  | write (value : BitVec 32)
  deriving DecidableEq, Repr

/-- The repeat of an entry: its period and remaining count, 0 for without end (Section 7.1). -/
structure Rep where
  period : BitVec 32
  count : Word
  deriving DecidableEq, Repr

/-- What is done with an entry found late (Section 7.4). -/
inductive LatePolicy where
  | fire | skip
  deriving DecidableEq, Repr

/-- The fields of a schedule entry (Section 7.1). -/
structure Entry where
  due : Time
  tag : Word
  action : Action
  mask : BitVec 32
  rep : Option Rep
  report : Bool
  late : LatePolicy
  deriving DecidableEq, Repr

/-- An entry of the active list with its entry order (R130). -/
structure Active where
  entry : Entry
  order : Nat
  deriving DecidableEq, Repr

/-- A staged operation (Section 8.1). -/
inductive StagedOp where
  | insert (entry : Entry)
  | cancel (tag : Word)
  | clearAll
  deriving DecidableEq, Repr

/-- The commit states (Section 8.2); `open_` is OPEN. -/
inductive CommitState where
  | open_ | armed | applying
  deriving DecidableEq, Repr

/-- The reasons an operation is refused for (R158). -/
inductive OpRefusal where
  | listFull | past | notFound | tooFar
  deriving DecidableEq, Repr

/-- The Schedule Unit. The counts and the first refusal of a batch are held while it applies (R166); their
values outside APPLYING, 0 and none at reset and those of the last batch after its finish, are a DESIGN
CHOICE (assumption log 31). -/
structure Schedule where
  active : List Active := []
  nextOrder : Nat := 0
  staging : List StagedOp := []
  commit : CommitState := .open_
  progress : Nat := 0
  applied : Nat := 0
  removed : Nat := 0
  refused : Nat := 0
  /-- the reason and index of the first refused operation of the batch (R158) -/
  firstRefusal : Option (OpRefusal × Nat) := none
  cat : Time := 0
  sarg : Word := 0
  deriving DecidableEq, Repr

/-! ### Mode and Error Control, register window (Chapters 9 and 10) -/

/-- The device modes (R169). -/
inductive Mode where
  | config | run
  deriving DecidableEq, Repr

/-- The refusal codes (Section 4.6, R181). -/
inductive RefCode where
  | readonly | mode | busy | range | full | unmapped | quota
  deriving DecidableEq, Repr

/-- The tables of the table access port (Section 10.3). -/
inductive TableSel where
  | line | reflex | output | quota | stage | sched
  deriving DecidableEq, Repr

/-! ### The whole part -/

/-- The state of the part. Plain data. -/
structure State where
  /-- RESETn is low: the part is held in device reset (R177) -/
  inReset : Bool := false
  /-- the level of the FRZn pin (R97) -/
  frzn : Bool := true
  /-- the word the most recent TIME_READ has put on D0-D15 (assumption log 18) -/
  readData : Word := 0
  tb : Timebase := {}
  lines : Bank Line 64 := Bank.fill {}
  claims : List Claim := []
  queues : Bank Queue 9
  groups : Bank Group 9 := Bank.fill {}
  wsel : GroupNo := 0
  outputs : Bank OutLine 32 := Bank.fill {}
  causes : Causes := {}
  slots : Bank Slot 16 := Bank.fill {}
  sched : Schedule := {}
  mode : Mode := .config
  /-- ERRFLAG, in the bits of R178 -/
  errFlags : BitVec 7 := 0
  /-- ERREN, in the bits of R178 -/
  errEnable : BitVec 7 := 0
  refCode : Option RefCode := none
  refAddr : Addr := 0
  tsel : TableSel := .line
  tidx : BitVec 8 := 0
  tdata : Bank Word 16 := Bank.fill 0
  /-- the model's own: how many open values have been drawn (assumption log 26) -/
  drawn : Nat := 0
  /-- the commands that are waiting, first in first out -/
  pending : List Instr := []
  deriving DecidableEq, Repr

/-- Faults. No happening stops the part (R178: "An error stops nothing in the part"), so there is no
constructor, and no command can answer a fault: safe. -/
inductive Fault where
  deriving DecidableEq, Repr

/-- Refusals of the model (not the refused host writes of R181, which are effects on the state). -/
inductive Refusal where
  /-- raised by an arm of `exec` that has no meaning yet: safe. No arm raises it. -/
  | notModelled (mnemonic : String)
  deriving DecidableEq, Repr

/-- The default quota of a queue (R52). -/
def Quota.default (g : GroupNo) : Quota :=
  if g = 8 then { reserve := 64, limit := 256 } else {}

/-- The queues after either reset (R66). -/
def Queue.resetBank : Bank Queue 9 := Bank.ofFn fun g => { quota := Quota.default g }

/-- The part right after device reset with FRZn high (R21, R45, R66, R86, R102, R127, R148, R168, R183,
R200; FRZn: assumption log 17), with no command waiting. -/
def State.reset : State := { queues := Queue.resetBank }

end Sys2Proof.Machine
end

