-- ==== Sys2Proof/Machine/Flags.lean ====
section
/-!
DEFINITION. The error flags and the refusal of a host write (Chapter 9), and the words that show one bit
per line, group or flag.
-/
namespace Sys2Proof.Machine

/-- The seven error flags (R178). -/
inductive ErrFlag where
  | refused | stale | loss | sync | commit | blocked | frozen
  deriving DecidableEq, Repr

/-- The place of a flag in ERRFLAG and ERREN (R178). -/
def ErrFlag.bit : ErrFlag → BitVec 7
  | .refused => 0x01
  | .stale => 0x02
  | .loss => 0x04
  | .sync => 0x08
  | .commit => 0x10
  | .blocked => 0x20
  | .frozen => 0x40

/-- Set an error flag; a flag that is set stays set (R178). -/
def State.setFlag (s : State) (f : ErrFlag) : State :=
  { s with errFlags := s.errFlags ||| f.bit }

/-- Set an error flag where a condition holds. -/
def State.setFlagIf (s : State) (c : Bool) (f : ErrFlag) : State :=
  if c then s.setFlag f else s

/-- A flag as ERRFLAG shows it. -/
def State.flag (s : State) (f : ErrFlag) : Bool := s.errFlags &&& f.bit != 0

/-- The value of a refusal code (Section 4.6). -/
def RefCode.value : RefCode → Word
  | .readonly => 1
  | .mode => 2
  | .busy => 3
  | .range => 4
  | .full => 5
  | .unmapped => 6
  | .quota => 7

/-- A refused host write: REFUSED is set and REFCODE takes the code and the address written; nothing
else changes (R181). -/
def State.refuse (s : State) (code : RefCode) (a : Addr) : State :=
  { s.setFlag .refused with refCode := some code, refAddr := a }

/-- The word whose bit i is `f i`, for i from 0 to 15. -/
def wordOf (f : Nat → Bool) : Word :=
  (List.range 16).foldl (fun w i => if f i then w ||| BitVec.ofNat 16 (2 ^ i) else w) 0

/-- Word `half` of a view with one bit per thing: thing n is bit (n mod 16) of word n div 16. -/
def viewWord {n : Nat} (f : Fin n → Bool) (half : Nat) : Word :=
  wordOf fun i => if h : 16 * half + i < n then f ⟨16 * half + i, h⟩ else false

/-- A one-bit field at place `i` of a word. -/
def bitAt (b : Bool) (i : Nat) : Word := if b then BitVec.ofNat 16 (2 ^ i) else 0

/-- A count that stops at the greatest number its field holds. -/
def satOf (w n : Nat) : BitVec w := BitVec.ofNat w (min n (2 ^ w - 1))

/-- A field one higher, stopping at its greatest number. -/
def satInc {w : Nat} (b : BitVec w) : BitVec w := satOf w (b.toNat + 1)

end Sys2Proof.Machine
end

