-- ==== Sys2Proof/Machine/Ops.lean ====
section
/-!
DEFINITION. Operations shared by all blocks: comparing time values, the stamp a record takes, offering a
claim to the allocator, and replacing one line, slot, queue, group or output line.
-/
namespace Sys2Proof.Machine

/-! ### Time values (Section 4.2, R3) -/

/-- T is reached when (now - T) mod 2^48 is less than 2^47 (R3). -/
def reached (now t : Time) : Bool := decide ((now - t).toNat < 2 ^ 47)

/-- The distance ahead of T is (T - now) mod 2^48 (Section 4.2). -/
def distance (now t : Time) : Nat := (t - now).toNat

/-! ### Stamps (R46, R50) -/

/-- What a record takes from the tick whose time value is its timestamp: the time value, the epoch, and
whether the timebase state of that tick was not LOCKED. -/
structure Stamp where
  time : Time
  epoch : BitVec 4
  unsync : Bool
  deriving DecidableEq, Repr

/-- The stamp of a happening of the most recent tick (R20). -/
def State.tickStamp (s : State) : Stamp :=
  ⟨s.tb.tickTime, s.tb.tickEpoch, s.tb.tickState != .locked⟩

/-- The stamp of a happening that is not a tick (R50): while the Timebase is STOPPED the held time value, the
current epoch and UNSYNC, and otherwise that of the most recent tick, which is 0, 0 and UNSYNC before any
tick has come (assumption log 10). -/
def State.eventStamp (s : State) : Stamp :=
  if s.tb.state = .stopped then ⟨s.tb.counter, s.tb.epoch, true⟩ else s.tickStamp

/-! ### Claims (R55) -/

/-- The order in which claims that wait together are taken (R55): the system queue first, and there the
Timebase, the Output Stage, the Schedule Unit, then the slots in ascending order; then the lines in
ascending order, which is ascending queue order. -/
def ClaimSource.rank : ClaimSource → Nat
  | .timebase => 0
  | .output => 1
  | .schedule => 2
  | .reflex i => 3 + i.val
  | .input n => 19 + n.val

/-- The queue a claim is for: the group of the line, n div 8 (Section 4.4), or the system queue. -/
def ClaimSource.queue : ClaimSource → GroupNo
  | .input n => ⟨n.val / 8, by omega⟩
  | _ => 8

/-- A claim put behind every waiting claim that is taken before it, so that claims of one source stay in
the order offered (R55). -/
def insertClaim (c : Claim) : List Claim → List Claim
  | [] => [c]
  | d :: ds => if d.source.rank ≤ c.source.rank then d :: insertClaim c ds else c :: d :: ds

/-- Offer a record to the allocator. -/
def State.offer (s : State) (src : ClaimSource) (atTick : Bool) (r : Record) : State :=
  { s with claims := insertClaim ⟨src, atTick, r⟩ s.claims }

/-! ### Replacing one item of a bank -/

/-- Replace one input line. -/
def State.setLine (s : State) (n : LineNo) (l : Line) : State := { s with lines := s.lines.set n l }

/-- Replace one slot. -/
def State.setSlot (s : State) (i : SlotNo) (x : Slot) : State := { s with slots := s.slots.set i x }

/-- Replace one queue. -/
def State.setQueue (s : State) (g : GroupNo) (q : Queue) : State :=
  { s with queues := s.queues.set g q }

/-- Replace one group. -/
def State.setGroup (s : State) (g : GroupNo) (x : Group) : State :=
  { s with groups := s.groups.set g x }

/-- Replace one output line. -/
def State.setOut (s : State) (n : OutNo) (o : OutLine) : State :=
  { s with outputs := s.outputs.set n o }

/-- Replace the Timebase. -/
def State.setTb (s : State) (t : Timebase) : State := { s with tb := t }

/-- Replace the Schedule Unit's state. -/
def State.setSched (s : State) (x : Schedule) : State := { s with sched := x }

/-- A 48-bit value with one of its three 16-bit words replaced (R192: least significant first). -/
def setTimeWord (t : Time) (i : Fin 3) (w : Word) : Time :=
  match i with
  | 0 => t.extractLsb' 32 16 ++ t.extractLsb' 16 16 ++ w
  | 1 => t.extractLsb' 32 16 ++ w ++ t.extractLsb' 0 16
  | 2 => w ++ t.extractLsb' 16 16 ++ t.extractLsb' 0 16

/-- Word `i` of a 48-bit value, least significant first. -/
def timeWord (t : Time) (i : Fin 3) : Word := t.extractLsb' (16 * i) 16

/-- A happening, done where it is due. A command for a happening that is not due finds nothing to take,
and the state stays as it is (assumption log 1). -/
def State.whenDue (s : State) (due : Bool) (f : State → State) : State := if due then f s else s

/-- A happening of the most recent tick, done where it is due. While the Timebase is STOPPED no tick comes
and none is due (R1: "no durations run out anywhere in the part"; R145). -/
def State.whenTickDue (s : State) (due : Bool) (f : State → State) : State :=
  s.whenDue (decide (s.tb.state ≠ .stopped) && due) f

/-- Do one thing for every number from 0 up. -/
def forEach {n : Nat} (f : Fin n → State → State) (s : State) : State :=
  (List.finRange n).foldl (fun t i => f i t) s

end Sys2Proof.Machine
end

