-- ==== Sys2Proof/Machine/Output.lean ====
section
/-!
DEFINITION. The Output Stage (Chapter 5): driven values, the claims of the host, the schedule and the
slots, output entry writes, and freeze.
-/
namespace Sys2Proof.Machine

/-! ### Freeze state and driven values -/

/-- Some freeze cause is present. -/
def Causes.any (c : Causes) : Bool := c.pin || c.command || c.holdover

/-- The stage is FROZEN exactly while the set of causes is not empty (Section 5.4). -/
def State.frozen (s : State) : Bool := s.causes.any

/-- R89: the driven value is the claimed value while RUNNING and the safe value while FROZEN. -/
def State.driven (s : State) (n : OutNo) : Bool :=
  if s.frozen then (s.outputs.get n).safe else (s.outputs.get n).claimed

/-- The pin of an output line: none is high-impedance (R89; R177 while the part is in reset). -/
def State.pin (s : State) (n : OutNo) : Option Bool :=
  if s.inReset || !(s.outputs.get n).drive then none else some (s.driven n)

/-! ### Claims (Section 5.2) -/

/-- A mask covers output line n (line n being bit n). -/
def covers (mask : BitVec 32) (n : OutNo) : Bool := mask.getLsbD n.val

/-- A mask covers some line that `owner` does not own. -/
def State.blockedFor (s : State) (owner : Owner) (mask : BitVec 32) : Bool :=
  anyIdx 32 fun n => covers mask n && (s.outputs.get n).owner != owner

/-- The lines a word of HOSTSET or HOSTCLR covers: line n is bit (n mod 16) of word n div 16 (R91). -/
def hostMask (half : Fin 2) (w : Word) : BitVec 32 := w.zeroExtend 32 <<< (16 * half.val)

/-- A host claim: every covered line owned by HOST takes the value, and BLOCKED is set when a covered
line has another owner (R91). -/
def State.hostClaim (s : State) (value : Bool) (half : Fin 2) (w : Word) : State :=
  let mask := hostMask half w
  let t : State := { s with
    outputs := s.outputs.mapIdx fun n o =>
      if covers mask n && o.owner == .host then { o with claimed := value } else o }
  t.setFlagIf (s.blockedFor .host mask) .blocked

/-- The new claimed value of a covered SCHEDULE-owned line (R92). -/
def Action.apply (a : Action) (n : OutNo) (old : Bool) : Bool :=
  match a with
  | .set => true
  | .clear => false
  | .toggle => !old
  | .write v => v.getLsbD n.val

/-- The findings with which the Output Stage answers a schedule claim (R92). -/
structure Findings where
  blocked : Bool
  frozen : Bool
  deriving DecidableEq, Repr

/-- The findings of a claim as the stage stands at the claim (R92). -/
def State.findings (s : State) (mask : BitVec 32) : Findings :=
  ⟨s.blockedFor .schedule mask, s.frozen⟩

/-- A schedule claim (R92). -/
def State.scheduleClaim (s : State) (a : Action) (mask : BitVec 32) : State :=
  let t : State := { s with
    outputs := s.outputs.mapIdx fun n o =>
      if covers mask n && o.owner == .schedule then { o with claimed := a.apply n o.claimed } else o }
  t.setFlagIf (s.blockedFor .schedule mask) .blocked

/-- A slot is asserting while it is ACTIVE or HOLDING (R93). -/
def Slot.asserting (x : Slot) : Bool := x.state == .active || x.state == .holding

/-- Some asserting slot covers the line. -/
def State.assertedOn (s : State) (n : OutNo) : Bool :=
  anyIdx 16 fun i => (s.slots.get i).asserting && covers (s.slots.get i).config.mask n

/-- R93: the claimed value of a REFLEX-owned line is its safe value inverted while an asserting slot
covers the line, and its safe value otherwise. -/
def State.reflexValue (s : State) (n : OutNo) (safe : Bool) : Bool :=
  if s.assertedOn n then !safe else safe

/-- The Output Stage re-evaluates every REFLEX-owned line (R93). -/
def State.reevaluate (s : State) : State :=
  { s with outputs := s.outputs.mapIdx fun n o =>
      if o.owner == .reflex then { o with claimed := s.reflexValue n o.safe } else o }

/-- The beginning of a slot's assertion, reported to the Output Stage: re-evaluation, and BLOCKED when
the mask covers a line not owned by REFLEX (R93, R106). -/
def State.beginAssert (s : State) (mask : BitVec 32) : State :=
  s.reevaluate.setFlagIf (s.blockedFor .reflex mask) .blocked

/-! ### Output entry writes (R88, R94, R95) -/

/-- The three configured items of an output entry. -/
structure OutEntry where
  owner : Owner
  safe : Bool
  drive : Bool
  deriving DecidableEq, Repr

/-- An accepted output entry write (R88). The claimed value is kept, but it is recomputed by R93 when
the write changes the owner to REFLEX (R94) or the safe value of a REFLEX-owned line (R95). -/
def State.writeOut (s : State) (n : OutNo) (e : OutEntry) : State :=
  let o := s.outputs.get n
  let recompute := e.owner == .reflex && (o.owner != .reflex || o.safe != e.safe)
  s.setOut n {
    owner := e.owner, safe := e.safe, drive := e.drive,
    claimed := if recompute then s.reflexValue n e.safe else o.claimed }

/-! ### Freeze causes and records (Section 5.4) -/

/-- A cause joins the set. -/
def Causes.add (c : Causes) : Cause → Causes
  | .pin => { c with pin := true }
  | .command => { c with command := true }
  | .holdover => { c with holdover := true }

/-- The causes of a FREEZE record's detail: bit 0 PIN, bit 1 COMMAND, bit 2 HOLDOVER (R199). -/
def Causes.word (c : Causes) : Word := bitAt c.pin 0 ||| bitAt c.command 1 ||| bitAt c.holdover 2

/-- A FREEZE record (R101): bit 15 of the detail is the direction, 0 ENTER and 1 RELEASE. -/
def freezeRecord (release : Bool) (causes : Causes) (st : Stamp) : Record :=
  { kind := .freeze, epoch := st.epoch, time := st.time,
    detail := causes.word ||| bitAt release 15, flags := { unsync := st.unsync } }

/-- A freeze cause is added (R96): from RUNNING the stage enters FROZEN, offers the ENTER record and sets
FROZEN; while FROZEN the cause joins the set and nothing else happens. -/
def State.addCause (s : State) (c : Cause) (atTick : Bool) (st : Stamp) : State :=
  let t := { s with causes := s.causes.add c }
  if s.frozen then t
  else (t.offer .output atTick (freezeRecord false (({} : Causes).add c) st)).setFlag .frozen

/-- UNFREEZE at a FROZEN stage (R100): every cause is cleared and the RELEASE record names them. -/
def State.releaseFreeze (s : State) : State :=
  { s with causes := {} }.offer .output false (freezeRecord true s.causes s.eventStamp)

/-- The FREEZE command (R98). -/
def freezeOp (s : State) : Except RefCode State := .ok (s.addCause .command false s.eventStamp)

/-- The UNFREEZE command (R100). -/
def unfreezeOp (s : State) : Except RefCode State :=
  if !s.frzn then .error .busy
  else if s.frozen then .ok s.releaseFreeze
  else .ok s

/-- FRZn falls (R97): a change from high to low adds PIN. While the part is held in reset only the level
changes (R177). -/
def State.frznFalls (s : State) : State :=
  if s.frzn then
    if s.inReset then { s with frzn := false }
    else { s with frzn := false }.addCause .pin false s.eventStamp
  else s

/-- FRZn rises (R97): the level changes and no cause is removed. -/
def State.frznRises (s : State) : State := { s with frzn := true }

end Sys2Proof.Machine
end

