-- ==== Sys2Proof/Machine/Pool.lean ====
section
/-!
DEFINITION. The Record Pool (Chapter 3) and the presentation of records by the Delivery Unit (R68, R70):
keys, the admission test, placement, overflow, the run notice, and the taking of a claim.
-/
namespace Sys2Proof.Machine

/-! ### Keys (R57) -/

/-- Timestamp a is earlier than timestamp b (R57). -/
def earlier (a b : Time) : Bool := decide (1 ≤ (b - a).toNat ∧ (b - a).toNat ≤ 2 ^ 47 - 1)

/-- Key a is smaller than key b (R57). -/
def Key.lt (a b : Key) : Bool :=
  earlier a.time b.time ||
    (!earlier a.time b.time && !earlier b.time a.time && decide (a.source.toNat < b.source.toNat))

/-- The key of a record (R57). -/
def Record.key (r : Record) : Key := ⟨r.time, r.source⟩

/-! ### Counts, reserves and the admission test (R51, R54) -/

/-- The count of a queue: the records it holds (R51). -/
def Queue.count (q : Queue) : Nat := q.records.length

/-- The part of a queue's reserve that it does not use. -/
def Queue.unused (q : Queue) : Nat := q.quota.reserve.toNat - q.count

/-- A sum over the nine queues. -/
def sumQueues (qs : Bank Queue 9) (f : GroupNo → Queue → Nat) : Nat :=
  ((List.finRange 9).map fun g => f g (qs.get g)).sum

/-- The free slots: the 512 less the records held (R51). -/
def State.freeSlots (s : State) : Nat := Config.poolSlots - sumQueues s.queues fun _ q => q.count

/-- The unused reserves of every queue other than g. -/
def State.unusedByOthers (s : State) (g : GroupNo) : Nat :=
  sumQueues s.queues fun h q => if h = g then 0 else q.unused

/-- The admission test (R54). -/
def State.admissible (s : State) (g : GroupNo) : Bool :=
  let q := s.queues.get g
  decide (q.count < q.quota.limit.toNat) &&
    (decide (q.count < q.quota.reserve.toNat) || decide (s.unusedByOthers g < s.freeSlots))

/-! ### Placement (R59) -/

/-- Number of records at the head of a queue that no new record passes: those of earlier runs and the
presented one (R59). -/
def Queue.fixed (q : Queue) (presented : Bool) : Nat := max q.runStart (if presented then 1 else 0)

/-- The scan of R59, on the records from the tail: it passes each record whose key is larger than the
new record's and stops at the first that is not; the new record goes directly behind that one. -/
def placeFromTail (r : Record) : List Record → List Record
  | [] => [r]
  | x :: xs => if r.key.lt x.key then x :: placeFromTail r xs else r :: x :: xs

/-- The records with a new one placed by R59. -/
def Queue.place (q : Queue) (presented : Bool) (r : Record) : List Record :=
  q.records.take (q.fixed presented) ++
    (placeFromTail r (q.records.drop (q.fixed presented)).reverse).reverse

/-! ### Presentation (R68) -/

/-- The number that follows a sequence number, passing from 65535 to 1 (R68, R69). -/
def nextSequence (w : Word) : Word := if w = 0xFFFF then 1 else w + 1

/-- The head record of a queue under a sequence number. -/
def numberHead (seq : Word) : List Record → List Record
  | [] => []
  | r :: rs => { r with seq := seq } :: rs

/-- The high-water key after a presentation: the key of the head when the head is of the current run
(R60). -/
def Queue.highWaterAfter (q : Queue) : Option Key :=
  match q.records with
  | [] => q.highWater
  | r :: _ => if q.runStart = 0 then some r.key else q.highWater

/-- The head of group g's queue is presented (R68). -/
def State.present (s : State) (g : GroupNo) : State :=
  let q := s.queues.get g
  let x := s.groups.get g
  (s.setQueue g { q with records := numberHead x.nextSeq q.records, highWater := q.highWaterAfter }).setGroup g
    { x with
      nextSeq := nextSequence x.nextSeq
      presented := some x.nextSeq
      ageTimer := if q.quota.age = 0 then none else some q.quota.age.toNat
      ageMark := false }

/-! ### Admission and overflow (R56, R61-R63) -/

/-- The new record carries LATE when the high-water key holds a larger key (R60). -/
def Queue.isLate (q : Queue) (r : Record) : Bool :=
  match q.highWater with
  | none => false
  | some k => r.key.lt k

/-- The record as it is admitted: its gap is the pending-loss count, and LATE is set by R60 (R56). -/
def Queue.asEntered (q : Queue) (r : Record) : Record :=
  { r with gap := q.pendingLoss, flags := { r.flags with late := q.isLate r } }

/-- The queue after the admission of a record (R56). -/
def Queue.enter (q : Queue) (presented : Bool) (r : Record) : Queue :=
  { q with records := q.place presented (q.asEntered r), pendingLoss := 0 }

/-- The Delivery Unit takes the notice of an admission (R70): with the group EMPTY before it and
delivery enabled, the record is presented at once. -/
def State.admissionNotice (s : State) (g : GroupNo) (wasEmpty : Bool) : State :=
  if wasEmpty && (s.groups.get g).deliver then s.present g else s

/-- A record is admitted to queue g (R56). -/
def State.enterRecord (s : State) (g : GroupNo) (r : Record) : State :=
  let q := s.queues.get g
  (s.setQueue g (q.enter (s.groups.get g).presented.isSome r)).admissionNotice g q.records.isEmpty

/-- The record of a failing claim is discarded under DROP_NEW (R62). -/
def State.dropNew (s : State) (g : GroupNo) : State :=
  let q := s.queues.get g
  (s.setQueue g { q with pendingLoss := satInc q.pendingLoss }).setFlag .loss

/-- The gap of the record at place i raised by n, stopping at 255 (R63). -/
def raiseGap (i n : Nat) (rs : List Record) : List Record :=
  rs.modify i fun r => { r with gap := satOf 8 (r.gap.toNat + n) }

/-- The queue without the record at place i; the run start keeps the division it marks (R58). -/
def Queue.without (q : Queue) (i : Nat) : Queue :=
  { q with
    records := q.records.eraseIdx i
    runStart := if i < q.runStart then q.runStart - 1 else q.runStart }

/-- A failing claim under DROP_OLDEST (R63). The candidate is the first undelivered record. Its discard is
an admission to a queue that was not EMPTY, which presents nothing (R70). -/
def State.dropOldest (s : State) (g : GroupNo) (r : Record) : State :=
  let q := s.queues.get g
  let p := (s.groups.get g).presented.isSome
  let i := if p then 1 else 0
  match q.records[i]? with
  | none => s.dropNew g
  | some c =>
    if decide (q.runStart ≤ i) && r.key.lt c.key then
      (s.setQueue g { q with records := raiseGap i 1 q.records }).setFlag .loss
    else
      let q' := (q.without i).enter p r
      (s.setQueue g { q' with records := raiseGap i (c.gap.toNat + 1) q'.records }).setFlag .loss

/-- One claim is taken whole (R55): admission (R56), or overflow under the queue's policy (R61). -/
def State.takeRecord (s : State) (g : GroupNo) (r : Record) : State :=
  if s.admissible g then s.enterRecord g r
  else match (s.queues.get g).quota.policy with
    | .dropNew => s.dropNew g
    | .dropOldest => s.dropOldest g r

/-- The allocator takes the first of the claims that wait (R55); with none waiting nothing happens. -/
def State.takeClaim (s : State) : State :=
  match s.claims with
  | [] => s
  | c :: cs => { s with claims := cs }.takeRecord c.source.queue c.record

/-- The allocator takes n claims. -/
def State.takeClaims : Nat → State → State
  | 0, s => s
  | n + 1, s => State.takeClaims n s.takeClaim

/-- Some claim offered at a happening that is not a tick waits. -/
def State.eventClaimWaits (s : State) : Bool := s.claims.any fun c => !c.atTick

/-- The allocator takes claims, at most n, until none offered at a happening that is not a tick waits. -/
def State.takeEventClaims : Nat → State → State
  | 0, s => s
  | n + 1, s => if s.eventClaimWaits then State.takeEventClaims n s.takeClaim else s

/-- What stands before a host access is taken (R55): "A claim offered at a happening that is not a tick
is taken before the next host access is taken". -/
def State.settled (s : State) : State := State.takeEventClaims s.claims.length s

/-! ### The run notice (R58) -/

/-- Every queue's run start moves to its tail end and its high-water key is cleared (R58). -/
def State.runNotice (s : State) : State :=
  { s with queues := s.queues.map fun q => { q with runStart := q.count, highWater := none } }

/-! ### Host accesses -/

/-- A host write to the word address a, taken by its owner `op` (R187): refused, it changes nothing it
addresses and is recorded (R181). While the part is held in reset it has no effect (R177). -/
def hostWrite (a : Addr) (op : State → Except RefCode State) (s : State) :
    Host.Outcome State Fault Refusal :=
  .next (if s.inReset then s
    else match op s.settled with
      | .ok t => t
      | .error c => s.settled.refuse c a)

end Sys2Proof.Machine
end

