-- ==== Sys2Proof/Machine/Schedule.lean ====
section
/-!
DEFINITION. The active list (Chapter 7): its order, firing, repeats and catch-up, late entries at a step,
and ACTION records.
-/
namespace Sys2Proof.Machine

/-! ### The order of the list (R130) -/

/-- An entry takes its place (R130): ahead of the first entry that is still ahead and due later, and so
behind the reached entries and behind every entry due at the same time. -/
def insertActive (now : Time) (a : Active) : List Active → List Active
  | [] => [a]
  | x :: xs =>
    if !reached now x.entry.due && decide (distance now a.entry.due < distance now x.entry.due) then
      a :: x :: xs
    else x :: insertActive now a xs

/-- An entry enters the list with a new entry order (R130). -/
def State.enterActive (s : State) (e : Entry) : State :=
  s.setSched { s.sched with
    active := insertActive s.tb.counter ⟨e, s.sched.nextOrder⟩ s.sched.active
    nextOrder := s.sched.nextOrder + 1 }

/-! ### Repeats (R134) -/

/-- Catch-up (R134) from a due time and a remaining count (0 without end): every due time already
reached is skipped and counted, until a due time is ahead or the count has run out. The number of skips
is computed: with the due time reached d ticks ago and the period p, the (d div p + 1)-th advance is the
first that is ahead (assumption log 14). The answer is the number of skips, and the due time and repeat
with which the entry goes on, none when it has ended. -/
def catchUp (now due : Time) (r : Rep) : Nat × Option (Time × Rep) :=
  if reached now due then
    let k := (now - due).toNat / r.period.toNat + 1
    let due' := due + BitVec.ofNat 48 (k * r.period.toNat)
    if r.count = 0 then (k, some (due', r))
    else if k < r.count.toNat then (k, some (due', { r with count := r.count - BitVec.ofNat 16 k }))
    else (r.count.toNat, none)
  else (0, some (due, r))

/-- What becomes of an entry at its due time (R134): the repetitions skipped after it, and the entry with
which it re-enters, none when it has left for good. -/
def Entry.afterDue (now : Time) (e : Entry) : Nat × Option Entry :=
  match e.rep with
  | none => (0, none)
  | some r =>
    if r.count = 1 then (0, none)
    else
      let c := catchUp now (e.due + r.period.zeroExtend 48)
        { r with count := if r.count = 0 then 0 else r.count - 1 }
      (c.1, c.2.map fun x => { e with due := x.1, rep := some x.2 })

/-- The entry re-enters, where it has not left for good (R134). -/
def State.reenter (s : State) (e : Option Entry) : State :=
  match e with
  | none => s
  | some e => s.enterActive e

/-! ### ACTION records (R136, R199) -/

/-- The detail of an ACTION record: bits 7:0 the catch-up count, stopping at 255, bit 8 LATE, bit 9
SKIPPED, bit 10 BLOCKED, bit 11 FROZEN, bit 12 LAST. -/
def actionDetail (catchUps : Nat) (late skipped blocked frozen last : Bool) : Word :=
  (satOf 8 catchUps).zeroExtend 16 ||| bitAt late 8 ||| bitAt skipped 9 ||| bitAt blocked 10
    ||| bitAt frozen 11 ||| bitAt last 12

/-- An ACTION record (R136). -/
def actionRecord (e : Entry) (detail : Word) (st : Stamp) : Record :=
  { kind := .action, epoch := st.epoch, time := st.time, tag := e.tag, detail := detail,
    flags := { unsync := st.unsync } }

/-- Offer an ACTION record when the entry's report is yes (R136). -/
def State.reportAction (s : State) (e : Entry) (atTick : Bool) (detail : Word) (st : Stamp) : State :=
  if e.report then s.offer .schedule atTick (actionRecord e detail st) else s

/-! ### Firing (R132-R136) -/

/-- An entry that has left the list fires: it claims its lines (R133), is dealt with by its repeat
(R134) and reports (R136). `late` marks an entry taken as late. -/
def State.fireEntry (s : State) (e : Entry) (late atTick : Bool) (st : Stamp) : State :=
  let f := s.findings e.mask
  let a := e.afterDue s.tb.counter
  ((s.scheduleClaim e.action e.mask).reenter a.2).reportAction e atTick
    (actionDetail a.1 late false f.blocked f.frozen a.2.isNone) st

/-- A late entry under SKIP (R139): no claim; the due time passed over counts as skipped. -/
def State.skipEntry (s : State) (e : Entry) (st : Stamp) : State :=
  let a := e.afterDue s.tb.counter
  (s.reenter a.2).reportAction e true (actionDetail (a.1 + 1) true true false false a.2.isNone) st

/-- The head of the list is reached at the time value of the most recent tick (R132). -/
def State.headReached (s : State) : Bool :=
  match s.sched.active with
  | [] => false
  | a :: _ => reached s.tb.counter a.entry.due

/-- The head fires where it is reached (R132). While the Timebase is STOPPED none fires by its due time
(R145). -/
def State.fireHead (s : State) : State :=
  s.whenTickDue s.headReached fun t =>
    match t.sched.active with
    | [] => t
    | a :: rest => (t.setSched { t.sched with active := rest }).fireEntry a.entry false true t.tickStamp

/-- The head fires, and the next head is compared in turn, at most n times (R132). -/
def State.fireHeads : Nat → State → State
  | 0, s => s
  | n + 1, s => State.fireHeads n s.fireHead

/-- One entry reached at a step tick: late when its due time is ahead against v, the time value before
the step, and taken by its late policy (R137-R139); fired normally otherwise. -/
def State.takeAtStep (v : Time) (s : State) (e : Entry) : State :=
  if reached v e.due then s.fireEntry e false true s.tickStamp
  else match e.late with
    | .fire => s.fireEntry e true true s.tickStamp
    | .skip => s.skipEntry e s.tickStamp

/-- The Schedule Unit's work at a step tick (R132, R137): the entries reached against the stepped time
value are taken together in list order (assumption log 13). -/
def State.stepEntries (s : State) (v : Time) : State :=
  let due := s.sched.active.filter fun a => reached s.tb.counter a.entry.due
  let rest := s.sched.active.filter fun a => !reached s.tb.counter a.entry.due
  due.foldl (fun t a => t.takeAtStep v a.entry) (s.setSched { s.sched with active := rest })

/-! ### Meaning -/

/-- FIRING (R132) of the head of the active list. -/
def execFiring (s : State) : Host.Outcome State Fault Refusal := .next s.fireHead

end Sys2Proof.Machine
end

