-- ==== Sys2Proof/Machine/Commit.lean ====
section
/-!
DEFINITION. Staging and commit (Chapter 8): the staging commands, the commit states, the application of
staged operations, and the COMMIT record.
-/
namespace Sys2Proof.Machine

/-! ### The staging list (R149-R153) -/

/-- Append an operation (R149, R151, R152): commit state, then room, then the fields; `op` is none where
a field is out of range. -/
def stageOp (op : Option StagedOp) (s : State) : Except RefCode State :=
  if s.sched.commit ≠ .open_ then .error .busy
  else if Config.stagingMax ≤ s.sched.staging.length then .error .full
  else match op with
    | none => .error .range
    | some o => .ok (s.setSched { s.sched with staging := s.sched.staging ++ [o] })

/-- CANCEL (R152): an operation with the SARG value, refused with RANGE where that is 0. -/
def cancelOp (s : State) : Except RefCode State :=
  stageOp (if s.sched.sarg = 0 then none else some (.cancel s.sched.sarg)) s

/-- CLEAR_ALL (R152). -/
def clearAllOp (s : State) : Except RefCode State := stageOp (some .clearAll) s

/-- DISCARD (R153). -/
def discardOp (s : State) : Except RefCode State :=
  if s.sched.commit = .open_ then .ok (s.setSched { s.sched with staging := [] }) else .error .busy

/-! ### The end of a commit (R164) -/

/-- The value of a refusal reason (R158). -/
def OpRefusal.value : OpRefusal → Nat
  | .listFull => 1
  | .past => 2
  | .notFound => 3
  | .tooFar => 4

/-- The COMMIT record (R164): the tag holds the applied and removed counts, the detail the refused count
in bits 6:0, the reason of the first refusal in bits 9:7 and its index in bits 15:10 (R199). -/
def commitRecord (x : Schedule) (st : Stamp) : Record :=
  { kind := .commit, epoch := st.epoch, time := st.time
    tag := BitVec.ofNat 8 x.removed ++ BitVec.ofNat 8 x.applied
    detail := match x.firstRefusal with
      | none => BitVec.ofNat 16 (x.refused % 128)
      | some (why, i) => BitVec.ofNat 6 i ++ BitVec.ofNat 3 why.value ++ BitVec.ofNat 7 x.refused
    flags := { unsync := st.unsync } }

/-- The application finishes (R164): the staging list is emptied, the state is OPEN, a COMMIT record is
offered, and COMMIT is set where an operation was refused. The counts of the batch stay as they are: DESIGN
CHOICE (assumption log 31). -/
def State.finishCommit (s : State) : State :=
  ((s.setSched { s.sched with staging := [], progress := 0, commit := .open_ }).offer .schedule false
    (commitRecord s.sched s.eventStamp)).setFlagIf (s.sched.refused != 0) .commit

/-! ### Commit states (R154-R157) -/

/-- The Schedule Unit goes to APPLYING with the progress and the counts of the batch at 0 (R154). An
empty batch finishes at once (R154, R164; assumption log 15). -/
def State.startApplying (s : State) : State :=
  let t := s.setSched { s.sched with
    commit := .applying, progress := 0, applied := 0, removed := 0, refused := 0, firstRefusal := none }
  if s.sched.staging.isEmpty then t.finishCommit else t

/-- COMMIT_NOW (R154). -/
def commitNowOp (s : State) : Except RefCode State :=
  if s.sched.commit = .open_ then .ok s.startApplying else .error .busy

/-- COMMIT_AT (R155): ARMED where the commit time is ahead, APPLYING where it is reached. -/
def commitAtOp (s : State) : Except RefCode State :=
  if s.sched.commit = .open_ then
    if reached s.tb.counter s.sched.cat then .ok s.startApplying
    else .ok (s.setSched { s.sched with commit := .armed })
  else .error .busy

/-- ABORT (R157). -/
def abortOp (s : State) : Except RefCode State :=
  if s.sched.commit = .armed then .ok (s.setSched { s.sched with commit := .open_ }) else .error .busy

/-- An ARMED batch whose commit time is reached at the time value of the most recent tick (R156). -/
def State.commitDue (s : State) : Bool :=
  s.sched.commit == .armed && reached s.tb.counter s.sched.cat

/-- The commit time is found reached, and the batch goes to APPLYING (R156). -/
def State.commitReached (s : State) : State := s.whenTickDue s.commitDue State.startApplying

/-- A write to a word of CAT (R155). -/
def catOp (i : Fin 3) (w : Word) (s : State) : Except RefCode State :=
  if s.sched.commit = .open_ then .ok (s.setSched { s.sched with cat := setTimeWord s.sched.cat i w })
  else .error .busy

/-- A write to SARG (R152). -/
def sargOp (w : Word) (s : State) : Except RefCode State := .ok (s.setSched { s.sched with sarg := w })

/-! ### Applying an operation (R158-R161) -/

/-- The operation that is applied next, while APPLYING (R158). -/
def State.nextOp (s : State) : Option StagedOp :=
  if s.sched.commit = .applying then s.sched.staging[s.sched.progress]? else none

/-- The outcome of an operation is counted (R158): applied, or refused, keeping the first refusal. -/
def State.countOp (s : State) (r : Except OpRefusal State) : State :=
  match r with
  | .ok t => t.setSched { t.sched with
      progress := t.sched.progress + 1, applied := min (t.sched.applied + 1) 255 }
  | .error why => s.setSched { s.sched with
      progress := s.sched.progress + 1
      refused := s.sched.refused + 1
      firstRefusal := if s.sched.refused = 0 then some (why, s.sched.progress) else s.sched.firstRefusal }

/-- A late entry under FIRE is placed at the head, takes an entry order and is fired at once (R140,
R159). -/
def State.fireLate (s : State) (e : Entry) : State :=
  (s.setSched { s.sched with nextOrder := s.sched.nextOrder + 1 }).fireEntry e true false s.eventStamp

/-- An INSERT is applied (R159): room, due time reached, horizon, insertion. -/
def State.applyInsert (s : State) (e : Entry) : Except OpRefusal State :=
  if Config.activeMax ≤ s.sched.active.length then .error .listFull
  else if reached s.tb.counter e.due then
    match e.late with
    | .skip => .error .past
    | .fire => .ok (s.fireLate e)
  else if Config.horizon < distance s.tb.counter e.due then .error .tooFar
  else .ok (s.enterActive e)

/-- Entries removed from the active list, counted up to 255 (R160, R161). -/
def State.removeActive (s : State) (keep : List Active) : State :=
  s.setSched { s.sched with
    active := keep
    removed := min (s.sched.removed + (s.sched.active.length - keep.length)) 255 }

/-- A CANCEL is applied (R160): every entry with the tag is removed; with none it is NOT_FOUND. -/
def State.applyCancel (s : State) (tag : Word) : Except OpRefusal State :=
  if s.sched.active.any fun a => a.entry.tag == tag then
    .ok (s.removeActive (s.sched.active.filter fun a => a.entry.tag != tag))
  else .error .notFound

/-- A CLEAR_ALL is applied (R161). -/
def State.applyClearAll (s : State) : Except OpRefusal State := .ok (s.removeActive [])

/-- The next staged operation, where it is an INSERT. -/
def State.insertNext (s : State) : State :=
  match s.nextOp with
  | some (.insert e) => s.countOp (s.applyInsert e)
  | _ => s

/-- The next staged operation, where it is a CANCEL. -/
def State.cancelNext (s : State) : State :=
  match s.nextOp with
  | some (.cancel tag) => s.countOp (s.applyCancel tag)
  | _ => s

/-- The next staged operation, where it is a CLEAR_ALL. -/
def State.clearAllNext (s : State) : State :=
  match s.nextOp with
  | some .clearAll => s.countOp s.applyClearAll
  | _ => s

/-- The last staged operation has been applied or refused (R164). -/
def State.finishDue (s : State) : Bool :=
  s.sched.commit == .applying && decide (s.sched.staging.length ≤ s.sched.progress)

/-! ### Meanings -/

/-- CANCEL (R152). -/
def execCancel (s : State) : Host.Outcome State Fault Refusal := hostWrite 0x60 cancelOp s

/-- CLEAR_ALL (R152). -/
def execClearAll (s : State) : Host.Outcome State Fault Refusal := hostWrite 0x60 clearAllOp s

/-- DISCARD (R153). -/
def execDiscard (s : State) : Host.Outcome State Fault Refusal := hostWrite 0x60 discardOp s

/-- COMMIT_NOW (R154). -/
def execCommitNow (s : State) : Host.Outcome State Fault Refusal := hostWrite 0x60 commitNowOp s

/-- COMMIT_AT (R155). -/
def execCommitAt (s : State) : Host.Outcome State Fault Refusal := hostWrite 0x60 commitAtOp s

/-- ABORT (R157). -/
def execAbort (s : State) : Host.Outcome State Fault Refusal := hostWrite 0x60 abortOp s

/-- COMMIT_TIME_REACHED (R156). -/
def execCommitTimeReached (s : State) : Host.Outcome State Fault Refusal := .next s.commitReached

/-- INSERT (R159). -/
def execInsert (s : State) : Host.Outcome State Fault Refusal := .next s.insertNext

/-- CANCEL_OPERATION (R160). -/
def execCancelOperation (s : State) : Host.Outcome State Fault Refusal := .next s.cancelNext

/-- CLEAR_ALL_OPERATION (R161). -/
def execClearAllOperation (s : State) : Host.Outcome State Fault Refusal := .next s.clearAllNext

/-- APPLICATION_FINISH (R164). -/
def execApplicationFinish (s : State) : Host.Outcome State Fault Refusal :=
  .next (s.whenDue s.finishDue State.finishCommit)

end Sys2Proof.Machine
end

