-- ==== Sys2Proof/Machine/Delivery.lean ====
section
/-!
DEFINITION. The Delivery Unit (Chapter 4): delivery states, acknowledges, flushes, delivery enables, the
age timers, attention, and IRQn, which follows from attention and the error flags (R184).
-/
namespace Sys2Proof.Machine

/-! ### Delivery state and attention -/

/-- The delivery state of a group (R67). -/
def State.deliveryState (s : State) (g : GroupNo) : DeliveryState :=
  if (s.groups.get g).presented.isSome then .presented
  else if (s.queues.get g).records.isEmpty then .empty
  else .waiting

/-- The presented record of a group: the head of its queue while the group is PRESENTED (R67). -/
def State.presentedRecord (s : State) (g : GroupNo) : Option Record :=
  if (s.groups.get g).presented.isSome then (s.queues.get g).records.head? else none

/-- The attention flag of a group (R79). -/
def State.attention (s : State) (g : GroupNo) : Bool :=
  match s.presentedRecord g with
  | none => false
  | some r =>
    decide ((s.queues.get g).quota.threshold.toNat ≤ (s.queues.get g).count)
      || r.flags.urgent || (s.groups.get g).ageMark

/-- A group asks for the interrupt: its attention flag and its interrupt enable are both set (R83). -/
def State.groupAsks (s : State) (g : GroupNo) : Bool := s.attention g && (s.groups.get g).irqEnable

/-- IRQn is asserted (R184); it is not while the part is held in reset (R177). -/
def State.irqAsserted (s : State) : Bool :=
  !s.inReset && (anyIdx 9 s.groupAsks || s.errFlags &&& s.errEnable != 0)

/-- NEXT: the lowest group that asks for the interrupt, or 15 (R82). -/
def State.nextGroup (s : State) : Nat :=
  match (List.finRange 9).find? s.groupAsks with
  | some g => g.val
  | none => 15

/-! ### Acknowledge (R73-R75) -/

/-- The queue with its presented record freed (R64). -/
def Queue.freeHead (q : Queue) : Queue :=
  { q with records := q.records.tail, runStart := q.runStart - 1 }

/-- A matching acknowledge (R74): the age timer stops, the presented record is freed, and the new head
is presented when records remain and delivery is enabled. -/
def State.freePresented (s : State) (g : GroupNo) : State :=
  let q := (s.queues.get g).freeHead
  let x := s.groups.get g
  let t := (s.setQueue g q).setGroup g { x with presented := none, ageTimer := none, ageMark := false }
  if !q.records.isEmpty && x.deliver then t.present g else t

/-- An acknowledge for group g carrying a sequence (R73): it matches when the group is PRESENTED under
that sequence, and is stale otherwise (R75). -/
def State.acknowledge (s : State) (g : GroupNo) (w : Word) : State :=
  if (s.groups.get g).presented = some w then s.freePresented g else s.setFlag .stale

/-- A write to ACKg is never refused (R73). -/
def ackOp (g : GroupNo) (w : Word) (s : State) : Except RefCode State := .ok (s.acknowledge g w)

/-! ### Flush (R76, R77) -/

/-- A flush of group g (R77, R65). A flush of a group already EMPTY changes nothing (R77, R65;
assumption log 23). -/
def State.flushGroup (s : State) (g : GroupNo) : State :=
  if s.deliveryState g = .empty then s
  else
    (s.setQueue g { s.queues.get g with
        records := [], runStart := 0, highWater := none, pendingLoss := 0 }).setGroup g
      { s.groups.get g with presented := none, ageTimer := none, ageMark := false }

/-- A write to GFLUSH: a value above 8 is refused with RANGE (R76). -/
def flushOp (w : Word) (s : State) : Except RefCode State :=
  if h : w.toNat < 9 then .ok (s.flushGroup ⟨w.toNat, h⟩) else .error .range

/-! ### Delivery enables (R71) and interrupt enables (R83) -/

/-- A DELEN write as it acts on one group (R71): a group turned on while WAITING has its head presented;
a group whose enable does not change is not affected. -/
def State.setDeliver (s : State) (g : GroupNo) (on : Bool) : State :=
  let x := s.groups.get g
  if x.deliver = on then s
  else
    let t := s.setGroup g { x with deliver := on }
    if on && s.deliveryState g == .waiting then t.present g else t

/-- A write to DELEN: bit g for group g, bits 9 to 15 ignored (R71). -/
def delenOp (w : Word) (s : State) : Except RefCode State :=
  .ok (forEach (fun g t => t.setDeliver g (w.getLsbD g.val)) s)

/-- A write to GIRQEN: bit g for group g, bits 9 to 15 ignored (R83). -/
def girqenOp (w : Word) (s : State) : Except RefCode State :=
  .ok { s with groups := s.groups.mapIdx fun g x => { x with irqEnable := w.getLsbD g.val } }

/-- A write to WSEL: a value above 8 is refused with RANGE (R72). -/
def wselOp (w : Word) (s : State) : Except RefCode State :=
  if h : w.toNat < 9 then .ok { s with wsel := ⟨w.toNat, h⟩ } else .error .range

/-! ### Age timers (R80) -/

/-- A tick is counted in every running age timer. -/
def State.countAges (s : State) : State :=
  { s with groups := s.groups.map fun x => { x with ageTimer := x.ageTimer.map (· - 1) } }

/-- The age timer of the group runs out at this tick. -/
def State.ageDue (s : State) (g : GroupNo) : Bool := (s.groups.get g).ageTimer == some 0

/-- The age timer runs out: its mark is set (R80). -/
def State.ageRunsOut (s : State) (g : GroupNo) : State :=
  s.whenTickDue (s.ageDue g) fun t =>
    t.setGroup g { t.groups.get g with ageTimer := none, ageMark := true }

/-! ### Meanings -/

/-- CLAIM (R55): the allocator takes the first waiting claim. -/
def execClaim (s : State) : Host.Outcome State Fault Refusal := .next s.takeClaim

/-- ACKNOWLEDGE (R73-R75). -/
def execAcknowledge (g : GroupNo) (w : Word) (s : State) : Host.Outcome State Fault Refusal :=
  hostWrite (BitVec.ofNat 8 (0x10 + g)) (ackOp g w) s

/-- FLUSH (R76, R77). -/
def execFlush (w : Word) (s : State) : Host.Outcome State Fault Refusal := hostWrite 0x19 (flushOp w) s

/-- DELEN_WRITE (R71). -/
def execDelenWrite (w : Word) (s : State) : Host.Outcome State Fault Refusal :=
  hostWrite 0x1A (delenOp w) s

/-- AGE_TIMER_RUNS_OUT (R80). -/
def execAgeTimerRunsOut (g : GroupNo) (s : State) : Host.Outcome State Fault Refusal :=
  .next (s.ageRunsOut g)

end Sys2Proof.Machine
end

