-- ==== Sys2Proof/Machine/Reflex.lean ====
section
/-!
DEFINITION. The Reflex Unit (Chapter 6): slots, triggers and gates, assertion and release, the retrigger
policies, the commands ARM, DISARM and CLEAR, and the reflex records.
-/
namespace Sys2Proof.Machine

/-! ### Records (R122, R123, R199) -/

/-- The end causes of a REFLEX_OFF record (R49, R123). -/
inductive EndCause where
  | ended | cleared | disarmed | halted | retriggered
  deriving DecidableEq, Repr

/-- The value of an end cause (R49). -/
def EndCause.value : EndCause → Word
  | .ended => 1
  | .cleared => 2
  | .disarmed => 3
  | .halted => 4
  | .retriggered => 5

/-- The slot number as the source of a record. -/
def slotSource (i : SlotNo) : BitVec 6 := BitVec.ofNat 6 i.val

/-- The trigger line in bits 5:0 of a tag (R199). -/
def lineTag (n : LineNo) : Word := BitVec.ofNat 16 n.val

/-- A REFLEX_ON record (R122): bit 8 of the tag is the triggering edge, 1 RISE; the detail is the
firings done. -/
def reflexOnRecord (i : SlotNo) (x : Slot) (st : Stamp) : Record :=
  { kind := .reflexOn, epoch := st.epoch, source := slotSource i, time := st.time,
    tag := lineTag x.config.trigger ||| bitAt (x.edge == some true) 8, detail := x.firings,
    flags := { unsync := st.unsync } }

/-- A REFLEX_OFF record (R123). -/
def reflexOffRecord (i : SlotNo) (x : Slot) (c : EndCause) (st : Stamp) : Record :=
  { kind := .reflexOff, epoch := st.epoch, source := slotSource i, time := st.time,
    tag := lineTag x.config.trigger, detail := c.value, flags := { unsync := st.unsync } }

/-- Offer a reflex record when the slot's report field is yes. -/
def State.reportReflex (s : State) (i : SlotNo) (atTick : Bool) (r : Record) : State :=
  if (s.slots.get i).config.report then s.offer (.reflex i) atTick r else s

/-! ### The pulse -/

/-- A running duration counter for d ticks. -/
def timerFor (d : BitVec 24) : Option Nat := some d.toNat

/-- Slot i asserts (R110): ACTIVE with the counter running for the width, or HOLDING when the width is
0; the beginning is reported to the Output Stage and a REFLEX_ON record is offered. -/
def State.assertSlot (s : State) (i : SlotNo) : State :=
  let x := s.slots.get i
  let y : Slot := if x.config.width = 0 then { x with state := .holding, timer := none }
    else { x with state := .active, timer := timerFor x.config.width }
  ((s.setSlot i y).beginAssert x.config.mask).reportReflex i true (reflexOnRecord i x s.tickStamp)

/-- A slot starts or restarts its delay (R109, R112, R113): DELAYING with the counter running for the
delay. -/
def Slot.startDelay (x : Slot) : Slot := { x with state := .delaying, timer := timerFor x.config.delay }

/-- A pulse is completed (R115, R119): the firings done rises, stopping at 65535, and the slot goes to
DISARMED at its count limit and to ARMED otherwise (R116). -/
def Slot.complete (x : Slot) : Slot :=
  let n := satInc x.firings
  { x with
    firings := n, timer := none
    state := if x.config.countLimit ≠ 0 ∧ n.toNat = x.config.countLimit.toNat then .disarmed else .armed }

/-- The pulse of slot i is completed with an end cause: the end of assertion is reported and REFLEX_OFF
is offered (R115, R119). -/
def State.completePulse (s : State) (i : SlotNo) (c : EndCause) (atTick : Bool) (st : Stamp) : State :=
  let x := s.slots.get i
  (s.setSlot i x.complete).reevaluate.reportReflex i atTick (reflexOffRecord i x c st)

/-- Slot i goes to DISARMED (R120, R125): an asserting slot is released, with REFLEX_OFF of the cause
given; any other makes no record. The firings done is kept. -/
def State.disarmSlot (s : State) (i : SlotNo) (c : EndCause) : State :=
  let x := s.slots.get i
  let t := s.setSlot i { x with state := .disarmed, timer := none }
  if x.asserting then t.reevaluate.reportReflex i false (reflexOffRecord i x c s.eventStamp) else t

/-! ### Triggers (R107-R114) -/

/-- The new level matches the trigger edge (R107). -/
def TriggerEdge.accepts (e : TriggerEdge) (level : Bool) : Bool :=
  match e with
  | .rise => level
  | .fall => !level
  | .either => true

/-- A qualified change of a line is a trigger of the slot (R107): the line, the edge, and the gate read
through `levels` (R108). -/
def Slot.triggeredBy (x : Slot) (line : LineNo) (level : Bool) (levels : LineNo → Bool) : Bool :=
  decide (x.config.trigger = line) && x.config.edge.accepts level &&
    (match x.config.gate with
    | none => true
    | some g => levels g.line == g.level)

/-- A RESTART trigger in ACTIVE (R113): the pulse is cut short with REFLEX_OFF RETRIGGERED; then the slot
delays again, and the end of assertion is reported, or with delay 0 asserts again at once. -/
def State.restartPulse (s : State) (i : SlotNo) (level : Bool) : State :=
  let x := s.slots.get i
  let t := (s.setSlot i { x with edge := some level }).reportReflex i true
    (reflexOffRecord i x .retriggered s.tickStamp)
  if x.config.delay = 0 then t.assertSlot i
  else (t.setSlot i (t.slots.get i).startDelay).reevaluate

/-- A trigger reaches slot i (R109, R112-R114). -/
def State.triggerSlot (s : State) (i : SlotNo) (level : Bool) : State :=
  let x := s.slots.get i
  match x.state with
  | .disarmed => s
  | .armed =>
    let t := s.setSlot i { x with edge := some level }
    if x.config.delay = 0 then t.assertSlot i else t.setSlot i (t.slots.get i).startDelay
  | .delaying =>
    match x.config.policy with
    | .restart => s.setSlot i { x.startDelay with edge := some level }
    | .ignore => s
    | .extend => s
  | .active =>
    match x.config.policy with
    | .ignore => s
    | .extend => s.setSlot i { x with timer := timerFor x.config.width }
    | .restart => s.restartPulse i level
  | .holding => s

/-- A passed change is offered to all sixteen slots, and each takes it as a trigger or not (R107). -/
def State.passChange (s : State) (line : LineNo) (level : Bool) (levels : LineNo → Bool) : State :=
  forEach (fun i t =>
    if (t.slots.get i).triggeredBy line level levels then t.triggerSlot i level else t) s

/-! ### Ticks -/

/-- A tick is counted in the duration counter of every DELAYING and ACTIVE slot. -/
def State.countSlots (s : State) : State :=
  { s with slots := s.slots.map fun x => { x with timer := x.timer.map (· - 1) } }

/-- The delay of slot i runs out at this tick. -/
def State.delayDue (s : State) (i : SlotNo) : Bool :=
  (s.slots.get i).state == .delaying && (s.slots.get i).timer == some 0

/-- The width of slot i runs out at this tick. -/
def State.widthDue (s : State) (i : SlotNo) : Bool :=
  (s.slots.get i).state == .active && (s.slots.get i).timer == some 0

/-- The delay of a DELAYING slot runs out and the slot asserts (R111). -/
def State.delayOut (s : State) (i : SlotNo) : State := s.whenTickDue (s.delayDue i) fun t => t.assertSlot i

/-- The width of an ACTIVE slot runs out and the pulse is completed (R115). -/
def State.widthOut (s : State) (i : SlotNo) : State :=
  s.whenTickDue (s.widthDue i) fun t => t.completePulse i .ended true t.tickStamp

/-! ### Host commands (R118-R120) and entry writes (R105) -/

/-- ARM (R118). -/
def armOp (i : SlotNo) (s : State) : Except RefCode State :=
  if s.mode = .config then .error .mode
  else if (s.slots.get i).state = .disarmed then
    .ok (s.setSlot i { s.slots.get i with state := .armed, firings := 0 })
  else .error .busy

/-- DISARM (R120). -/
def disarmOp (i : SlotNo) (s : State) : Except RefCode State := .ok (s.disarmSlot i .disarmed)

/-- CLEAR (R119). -/
def clearOp (i : SlotNo) (s : State) : Except RefCode State :=
  if (s.slots.get i).state = .holding then .ok (s.completePulse i .cleared false s.eventStamp)
  else .error .busy

/-- A write of REFLEX table entry i (R105): state, then range. -/
def writeSlotOp (i : SlotNo) (c : Option SlotConfig) (s : State) : Except RefCode State :=
  if (s.slots.get i).state = .disarmed then
    match c with
    | none => .error .range
    | some c => .ok (s.setSlot i { s.slots.get i with config := c })
  else .error .busy

/-! ### Meanings -/

/-- DELAY_RUNS_OUT (R111). -/
def execDelayRunsOut (i : SlotNo) (s : State) : Host.Outcome State Fault Refusal := .next (s.delayOut i)

/-- WIDTH_RUNS_OUT (R115). -/
def execWidthRunsOut (i : SlotNo) (s : State) : Host.Outcome State Fault Refusal := .next (s.widthOut i)

/-- ARM (R118). -/
def execArm (i : SlotNo) (s : State) : Host.Outcome State Fault Refusal := hostWrite 0x58 (armOp i) s

/-- DISARM (R120). -/
def execDisarm (i : SlotNo) (s : State) : Host.Outcome State Fault Refusal :=
  hostWrite 0x58 (disarmOp i) s

/-- CLEAR (R119). -/
def execClear (i : SlotNo) (s : State) : Host.Outcome State Fault Refusal := hostWrite 0x58 (clearOp i) s

end Sys2Proof.Machine
end

