-- ==== Sys2Proof/Machine/Input.lean ====
section
/-!
DEFINITION. The Input Unit (Chapter 2): sampling and qualification, EDGE records and intervals, chatter
suppression and release, rebasing at a step, and line entry writes.
-/
namespace Sys2Proof.Machine

/-! ### Line states (R23-R27) -/

/-- A line is sampled while it is LIVE or SUPPRESSED (R29). -/
def Line.sampled (l : Line) : Bool := l.state == .live || l.state == .suppressed

/-- The working state cleared when a line goes OFF or IDLE (R23, R26). The configured fields and the
last selected onset are kept. -/
def Line.quieted (l : Line) (st : LineState) : Line :=
  { l with
    state := st, established := false, level := false, qualifier := .stable, interval := 0
    window := none, quiet := none, seen := 0 }

/-- A line enters LIVE with its level not yet established (R27). -/
def Line.enterLive (l : Line) : Line := { l.quieted .live with firstMark := true }

/-- The effect of an accepted RUN on a line (R25). -/
def Line.onRun (l : Line) : Line := if l.state = .idle then l.enterLive else l

/-- The effect of an accepted HALT on a line (R26). -/
def Line.onHalt (l : Line) : Line := if l.sampled then l.quieted .idle else l

/-! ### The tick's work on one line (R28-R31, R34, R37, R42) -/

/-- A count of ticks one higher, stopping at 2^32 - 1 (R34, R37). -/
def countUp (n : Nat) : Nat := min (n + 1) Config.tickCounterMax

/-- Counting at a tick. The count that phase 4 of the tick before makes in the interval counter and the
window's age is made here, where it is first read (assumption log 11), and this tick is counted in the
quiet timer. -/
def Line.countTick (l : Line) : Line :=
  if l.sampled && l.established then
    { l with
      interval := countUp l.interval
      window := l.window.map fun w => { w with age := countUp w.age }
      quiet := l.quiet.map (· - 1) }
  else l

/-- Rebasing at a step (R42): a pending onset moves by the step amount into the new epoch and is marked,
and so does the last selected onset. -/
def Line.rebase (amount : Time) (epoch : BitVec 4) (l : Line) : Line :=
  { l with
    lastOnset := l.lastOnset + amount
    qualifier := match l.qualifier with
      | .stable => .stable
      | .pending lvl o n => .pending lvl { o with time := o.time + amount, epoch := epoch, rebased := true } n }

/-- The sample of a line at a tick (R27, R29-R31): the first sample after entering LIVE establishes the
level; then the qualifier starts, continues or abandons a pending change. -/
def Line.sample (b : Bool) (now : Onset) (l : Line) : Line :=
  if !l.sampled then l
  else if !l.established then { l with established := true, level := b }
  else match l.qualifier with
    | .stable => if b = l.level then l else { l with qualifier := .pending b now 1 }
    | .pending lvl o n =>
      if b = lvl then { l with qualifier := .pending lvl o (n + 1) } else { l with qualifier := .stable }

/-! ### Qualification (R31-R40) -/

/-- The stable count has reached filter + 1: the pending change qualifies at this tick (R31). -/
def Line.qualifies (l : Line) : Bool :=
  match l.qualifier with
  | .stable => false
  | .pending _ _ n => decide (l.config.filter.toNat + 1 ≤ n)

/-- The level of a line after all qualifications of the tick, as a gate reads it (R43, R108). -/
def Line.levelAfter (l : Line) : Bool :=
  match l.qualifier with
  | .stable => l.level
  | .pending lvl _ _ => if l.qualifies then lvl else l.level

/-- The edge select selects a change to the level (Section 2.1). -/
def EdgeSelect.selects (e : EdgeSelect) (level : Bool) : Bool :=
  match e with
  | .rise => level
  | .fall => !level
  | .both => true

/-- The chatter check (R36, R38): none where the change fails it, and otherwise the window after it. -/
def Line.chatterCheck (l : Line) : Option (Option ChatterWindow) :=
  let f := l.config.filter.toNat
  if l.config.chatterLimit = 0 then some none
  else match l.window with
    | none => some (some ⟨1, f⟩)
    | some w =>
      if l.config.chatterWindow.toNat + f ≤ w.age then some (some ⟨1, f⟩)
      else if w.count < l.config.chatterLimit.toNat then some (some { w with count := w.count + 1 })
      else none

/-- The interval of a change that is recorded now is one the rule gives no value for (R34): the change's
onset precedes the line's release, which restarted the counter, so that the counter stands below the filter
(assumption log 26). -/
def Line.intervalOpen (l : Line) : Bool :=
  !l.firstMark && decide (l.interval < l.config.filter.toNat)

/-- The flags FIRST and SAT and the interval of a recorded change (R34); `v` is the value that the interval
takes where it is open. -/
def Line.intervalOf (l : Line) (v : BitVec 32) : Bool × Bool × BitVec 32 :=
  if l.firstMark then (true, false, BitVec.allOnes 32)
  else if l.interval = Config.tickCounterMax then (false, true, BitVec.allOnes 32)
  else if l.interval < l.config.filter.toNat then (false, false, v)
  else (false, false, BitVec.ofNat 32 (l.interval - l.config.filter.toNat))

/-- The line as the source of a record. -/
def lineSource (n : LineNo) : BitVec 6 := BitVec.ofNat 6 n.val

/-- The EDGE record of a change to `lvl` with onset `o` on line n (R33); `v` is the interval where it is
open (assumption log 26). -/
def edgeRecord (n : LineNo) (l : Line) (lvl : Bool) (o : Onset) (v : BitVec 32) : Record :=
  let x := l.intervalOf v
  { kind := .edge, epoch := o.epoch, source := lineSource n, time := o.time, interval := x.2.2,
    flags := { rise := lvl, first := x.1, sat := x.2.1, urgent := l.config.urgent,
               stepped := o.rebased, unsync := o.state != .locked } }

/-- The SUPPRESS record of the change that failed the check (R39). -/
def suppressRecord (n : LineNo) (l : Line) (lvl : Bool) (o : Onset) : Record :=
  { kind := .suppress, epoch := o.epoch, source := lineSource n, time := o.time,
    tag := l.config.chatterLimit.zeroExtend 16,
    flags := { rise := lvl, urgent := l.config.urgent, stepped := o.rebased,
               unsync := o.state != .locked } }

/-- The line after its pending change has qualified (R31): the level is the new one, and the qualifier
is STABLE. -/
def Line.qualified (l : Line) (lvl : Bool) : Line := { l with level := lvl, qualifier := .stable }

/-- The line after the change with onset `o` has been recorded (R34, R35, R38). -/
def Line.recorded (l : Line) (o : Onset) (w : Option ChatterWindow) : Line :=
  { l with window := w, interval := l.config.filter.toNat, firstMark := false, lastOnset := o.time }

/-- The line after a change to `lvl` has failed the check (R39). -/
def Line.suppressedBy (l : Line) : Line :=
  { l with state := .suppressed, levelBefore := l.level, seen := 0,
           quiet := some l.config.quietTime.toNat }

/-- The line after a change qualified while it is SUPPRESSED (R40). -/
def Line.restarted (l : Line) : Line :=
  { l with quiet := some l.config.quietTime.toNat, seen := min (l.seen + 1) 65535 }

/-- The levels the Reflex Unit reads: as they stand after all qualifications of the tick (R43). -/
def State.gateLevels (s : State) : LineNo → Bool := fun m => (s.lines.get m).levelAfter

/-- The draw of an open value is counted, so that the next one is another. -/
def State.drawIf (s : State) (c : Bool) : State := if c then { s with drawn := s.drawn + 1 } else s

/-- The change is recorded (R33 to R35): the line takes the record's marks, and the EDGE record is
offered. -/
def State.recordEdge (s : State) (n : LineNo) (lvl : Bool) (o : Onset) (w : Option ChatterWindow) : State :=
  let l := s.lines.get n
  ((s.setLine n ((l.recorded o w).qualified lvl)).offer (.input n) true
    (edgeRecord n l lvl o (Config.openInterval s.drawn))).drawIf l.intervalOpen

/-- A pending change of line n, to the level `lvl` with onset `o`, qualifies and is handled by the state
of the line (R31, R32). -/
def State.handleChange (s : State) (n : LineNo) (lvl : Bool) (o : Onset) : State :=
  let l := s.lines.get n
  let pass (t : State) : State := t.passChange n lvl t.gateLevels
  match l.state with
  | .live =>
    if l.config.edge.selects lvl then
      match l.chatterCheck with
      | some w =>
        pass (s.recordEdge n lvl o w)
      | none =>
        (s.setLine n (l.suppressedBy.qualified lvl)).offer (.input n) true (suppressRecord n l lvl o)
    else pass (s.setLine n (l.qualified lvl))
  | .suppressed => s.setLine n (l.restarted.qualified lvl)
  | .idle => s.setLine n (l.qualified lvl)
  | .off => s.setLine n (l.qualified lvl)

/-- QUALIFICATION of line n, where its pending change qualifies at this tick. -/
def State.qualify (s : State) (n : LineNo) : State :=
  s.whenTickDue (s.lines.get n).qualifies fun t =>
    match (t.lines.get n).qualifier with
    | .stable => t
    | .pending lvl o _ => t.handleChange n lvl o

/-! ### Release (R41) -/

/-- Some line has a qualified change of this tick that is not yet handled (phase 3 of R28). -/
def State.someQualifies (s : State) : Bool := anyIdx 64 fun n => (s.lines.get n).qualifies

/-- The quiet timer of line n runs out at this tick; releases come in phase 4, after every qualified
change of the tick is handled (R28). -/
def State.releaseDue (s : State) (n : LineNo) : Bool :=
  (s.lines.get n).state == .suppressed && (s.lines.get n).quiet == some 0 && !s.someQualifies

/-- The RELEASE record (R41): the tag is the changes seen, the detail the qualified level. -/
def releaseRecord (n : LineNo) (l : Line) (st : Stamp) : Record :=
  { kind := .release, epoch := st.epoch, source := lineSource n, time := st.time,
    tag := BitVec.ofNat 16 l.seen, detail := bitAt l.level 0,
    flags := { urgent := l.config.urgent, unsync := st.unsync } }

/-- The LEVEL record (R41), with the interval counter's value, or SAT and all ones at its maximum. -/
def levelRecord (n : LineNo) (l : Line) (st : Stamp) : Record :=
  { kind := .level, epoch := st.epoch, source := lineSource n, time := st.time,
    interval := if l.interval = Config.tickCounterMax then BitVec.allOnes 32
      else BitVec.ofNat 32 l.interval,
    flags := { rise := l.level, level := l.level, sat := decide (l.interval = Config.tickCounterMax),
               urgent := l.config.urgent, unsync := st.unsync } }

/-- The line after its release (R41): LIVE, its level kept and established, the interval counter at 0,
the chatter window closed and the quiet timer stopped. -/
def Line.released (l : Line) : Line :=
  { l with state := .live, established := true, interval := 0, window := none, quiet := none, seen := 0 }

/-- Line n is released (R41): a RELEASE record, then a LEVEL record when the level differs from the
level before suppression. -/
def State.releaseLine (s : State) (n : LineNo) : State :=
  let l := s.lines.get n
  let t := (s.setLine n l.released).offer (.input n) true (releaseRecord n l s.tickStamp)
  if l.level = l.levelBefore then t else t.offer (.input n) true (levelRecord n l s.tickStamp)

/-- RELEASE of line n, where it is due. -/
def State.releaseIfDue (s : State) (n : LineNo) : State :=
  s.whenTickDue (s.releaseDue n) fun t => t.releaseLine n

/-! ### The tick's work of the unit -/

/-- The phases of a tick that TICK makes on every line: at a step tick the rebasing (phase 1), then the
samples (phase 2), and the counting of the tick. -/
def State.tickLines (s : State) (samples : BitVec 64) (step : Option Time) : State :=
  let now : Onset := ⟨s.tb.counter, s.tb.epoch, s.tb.tickState, false⟩
  let moved (l : Line) : Line := match step with
    | none => l
    | some a => l.rebase a s.tb.epoch
  { s with lines := s.lines.mapIdx fun n l => (moved l.countTick).sample (samples.getLsbD n.val) now }

/-! ### Line entry writes (R22-R24) -/

/-- A write of LINE table entry n: the state and mode check, then the range check, then the mode
effects. `on` is the mode field written, `c` the whole entry, none where a field is out of range. -/
def writeLineOp (n : LineNo) (on : Bool) (c : Option LineConfig) (s : State) : Except RefCode State :=
  let l := s.lines.get n
  if on && s.mode == .run && l.state != .off then .error .busy
  else match c with
    | none => .error .range
    | some c =>
      let m := { l with config := c }
      .ok (s.setLine n (
        if !on then m.quieted .off
        else if s.mode = .run then m.enterLive
        else m.quieted .idle))

/-! ### Meanings -/

/-- QUALIFICATION (R31). -/
def execQualification (n : LineNo) (s : State) : Host.Outcome State Fault Refusal := .next (s.qualify n)

/-- RELEASE (R41). -/
def execRelease (n : LineNo) (s : State) : Host.Outcome State Fault Refusal := .next (s.releaseIfDue n)

end Sys2Proof.Machine
end

