-- ==== Sys2Proof/Machine/Timebase.lean ====
section
/-!
DEFINITION. The Timebase (Chapter 1): its part of a tick (advance, pulse evaluation, slew, steps, lock,
missed pulses), its commands and switches, its settings and the time read.
-/
namespace Sys2Proof.Machine

/-! ### Advance and slew (R2, R13) -/

/-- By how much an advance moves the counter (R2). -/
def Advance.amount : Advance → Time
  | .normal => 1
  | .held => 0
  | .doubled => 2

/-- The coming tick ends a slew spacing: an adjustment falls at it and has not been taken yet (R13). -/
def Timebase.slewDue (t : Timebase) : Bool :=
  match t.slew with
  | none => false
  | some x => decide (t.advance = .normal) && decide (x.next ≤ 1)

/-- A pending adjustment makes the coming tick a held or a doubled tick (R13). -/
def Timebase.adjust (t : Timebase) : Timebase :=
  match t.slew with
  | none => t
  | some x =>
    { t with
      advance := if x.ahead then .held else .doubled
      slew := if x.left ≤ 1 then none else some { x with left := x.left - 1, next := x.spacing } }

/-- Slew adjustments are pending, as TBSTAT shows (R13). -/
def Timebase.slewPending (t : Timebase) : Bool := t.slew.isSome || t.advance != .normal

/-- The adjustments of a slewed pulse with phase error e (R13): |e| of them, floor(P / (|e| + 1)) ticks
apart. -/
def slewFor (period : Nat) (e : Int) : Option Slew :=
  if e = 0 then none
  else some {
    ahead := decide (0 < e), left := e.natAbs
    spacing := period / (e.natAbs + 1), next := period / (e.natAbs + 1) }

/-! ### Pulse evaluation (R11-R16) -/

/-- The phase error (R11): r = V mod P, or r - P where r is above P/2. -/
def phaseError (v : Time) (period : Nat) : Int :=
  let r := v.toNat % period
  if 2 * r ≤ period then (r : Int) else (r : Int) - (period : Int)

/-- The codes of SYNC records (R19). -/
inductive SyncCode where
  | step | locked | lost | fault
  deriving DecidableEq, Repr

/-- The value of a code (R19). -/
def SyncCode.value : SyncCode → BitVec 3
  | .step => 1
  | .locked => 2
  | .lost => 3
  | .fault => 4

/-- A SYNC record the Timebase offers: its code and the phase error it carries (R19). -/
structure SyncEvent where
  code : SyncCode
  error : Int
  deriving DecidableEq, Repr

/-- What a Timebase happening answers: the Timebase after it, the records it offers in order, and
whether the Output Stage is told to add HOLDOVER (R18). -/
structure TbEffect where
  tb : Timebase
  events : List SyncEvent := []
  notice : Bool := false
  deriving DecidableEq, Repr

/-- The ticks for which an evaluated pulse in LOCKED starts the miss timer (R16, R17). -/
def Timebase.pulseTimer (t : Timebase) : Option Nat := some (t.period.toNat + t.tolerance.toNat)

/-- The transition of a good, slewed or stepped pulse (R16): to LOCKED with a LOCKED record where it was
not, the counters at 0, and the miss timer started afresh. -/
def Timebase.lockOn (t : Timebase) (e : Int) : TbEffect :=
  if t.state = .locked then
    { tb := { t with missCount := 0, badCount := 0, missTimer := t.pulseTimer } }
  else
    { tb := { t with
        state := .locked, missCount := 0, badCount := 0, missReached := false, badReached := false
        missTimer := t.pulseTimer }
      events := [⟨.locked, e⟩] }

/-- The transition of a bad pulse (R16): in LOCKED the bad counter rises, and at the bad limit the
Timebase enters HOLDOVER (R18); in FREE and HOLDOVER nothing changes. -/
def Timebase.badPulse (t : Timebase) (e : Int) : TbEffect :=
  if t.state = .locked then
    if t.badCount + 1 = t.badLimit then
      { tb := { t with
          state := .holdover, badCount := t.badCount + 1, badReached := true, missTimer := none }
        events := [⟨.fault, e⟩, ⟨.lost, e⟩], notice := t.freezeOnHoldover }
    else
      { tb := { t with badCount := t.badCount + 1, missTimer := t.pulseTimer }, events := [⟨.fault, e⟩] }
  else { tb := t, events := [⟨.fault, e⟩] }

/-- What an evaluated pulse answers: its effect, and the step amount of a stepped pulse. -/
structure PulseEffect where
  effect : TbEffect
  step : Option Time
  deriving DecidableEq, Repr

/-- An evaluated pulse at the tick whose advance has reached the counter (R11-R16). -/
def Timebase.pulse (t : Timebase) : PulseEffect :=
  let e := phaseError t.counter t.period.toNat
  let u := { t with slew := none, lastError := e }
  if e.natAbs ≤ t.slewLimit.toNat then
    ⟨{ u with slew := slewFor t.period.toNat e }.lockOn e, none⟩
  else if t.stepAllow then
    let x := { u with counter := t.counter - BitVec.ofInt 48 e, epoch := t.epoch + 1 }.lockOn e
    ⟨{ x with events := ⟨.step, e⟩ :: x.events }, some (-BitVec.ofInt 48 e)⟩
  else ⟨u.badPulse e, none⟩

/-! ### The miss timer (R17, R18) -/

/-- The miss timer has run out at this tick and its expiry is still to be taken. -/
def Timebase.expiryDue (t : Timebase) : Bool := decide (t.state = .locked) && t.missTimer == some 0

/-- The miss timer runs out (R17): the miss counter rises; at the miss limit the Timebase enters HOLDOVER
(R18), otherwise the timer starts again for P ticks. -/
def Timebase.expire (t : Timebase) : TbEffect :=
  if t.missCount + 1 = t.missLimit then
    { tb := { t with
        state := .holdover, missCount := t.missCount + 1, missReached := true, missTimer := none }
      events := [⟨.lost, 0⟩], notice := t.freezeOnHoldover }
  else { tb := { t with missCount := t.missCount + 1, missTimer := some t.period.toNat } }

/-! ### The Timebase at a tick (R1, R2, R10) -/

/-- The Timebase after the advance of a tick (R2), with SYNC sampled (R10), and the tick counted in the
slew spacing, but where an adjustment falls at it, and in the miss timer. -/
def Timebase.advanced (t : Timebase) (sync : Bool) : Timebase :=
  { t with
    counter := t.counter + t.advance.amount
    slew := if t.advance = .normal then t.slew.map fun x => { x with next := x.next - 1 } else t.slew
    advance := .normal
    missTimer := t.missTimer.map (· - 1)
    syncLevel := some sync }

/-- The tick is a pulse that is evaluated (R10): SYNC high after a low sample, with sync enable yes. -/
def Timebase.sees (t : Timebase) (sync : Bool) : Bool := t.syncLevel == some false && sync && t.syncEnable

/-- What the Timebase's part of a tick answers; `before` is V, the time value before a step. -/
structure TickEffect where
  effect : TbEffect
  step : Option Time := none
  before : Time
  deriving DecidableEq, Repr

/-- An expiry that comes at the tick of a pulse is taken before it where `expiryFirst` says so (R17). -/
def Timebase.expireFirst (t : Timebase) (expiryFirst : Bool) : TbEffect :=
  if expiryFirst && t.expiryDue then t.expire else { tb := t }

/-- The timebase state of the tick (R20): the state after any transition at that tick, an expiry still
to be taken included (assumption log 8). -/
def Timebase.stateOfTick (t : Timebase) : TimebaseState :=
  if t.expiryDue && decide (t.missCount + 1 = t.missLimit) then .holdover else t.state

/-- The tick is over for the Timebase: its time value, epoch and timebase state are those of the most recent
tick (R20). -/
def Timebase.ticked (t : Timebase) : Timebase :=
  { t with tickTime := t.counter, tickEpoch := t.epoch, tickState := t.stateOfTick }

/-- The Timebase's part of a tick (R1, R2, R10, R11, R17). Where an expiry taken first reaches the miss limit
and the same tick's pulse is stepped, its LOST record is offered ahead of STEP, in the order of the two
happenings (R17, R55), although R15 calls STEP the first record of the new run: DESIGN CHOICE (assumption
log 9). -/
def Timebase.tick (t : Timebase) (sync expiryFirst : Bool) : TickEffect :=
  let u := t.advanced sync
  if t.sees sync then
    let x := u.expireFirst expiryFirst
    let p := x.tb.pulse
    { effect := {
        tb := p.effect.tb.ticked
        events := x.events ++ p.effect.events
        notice := x.notice || p.effect.notice }
      step := p.step, before := u.counter }
  else { effect := { tb := u.ticked }, before := u.counter }

/-! ### SYNC records (R19) -/

/-- A SYNC record (R19): the phase error is a 24-bit two's-complement value in the tag and bits 7:0 of
the detail, the code stands in bits 14:12 (R199). UNSYNC is set where the state of the tick is not
LOCKED, and in every LOST record (assumption log 9). -/
def syncRecord (x : SyncEvent) (st : Stamp) : Record :=
  { kind := .sync, epoch := st.epoch, time := st.time
    tag := (BitVec.ofInt 24 x.error).extractLsb' 0 16
    detail := (x.code.value.zeroExtend 16 <<< 12) ||| ((BitVec.ofInt 24 x.error).extractLsb' 16 8).zeroExtend 16
    flags := { unsync := st.unsync || x.code == .lost } }

/-- The error flag SYNC is set at every FAULT and every LOST (R19). -/
def SyncEvent.raises (x : SyncEvent) : Bool := x.code == .fault || x.code == .lost

/-- The Timebase takes the effect: it offers its records in order, sets SYNC at a FAULT or a LOST, and
gives the HOLDOVER cause to the Output Stage where R18 says so. -/
def State.timebaseEffect (s : State) (x : TbEffect) : State :=
  let t := s.setTb x.tb
  let u := (x.events.foldl (fun t e => t.offer .timebase true (syncRecord e t.tickStamp)) t).setFlagIf
    (x.events.any SyncEvent.raises) .sync
  if x.notice then u.addCause .holdover true { u.tickStamp with unsync := true } else u

/-- MISS_TIMER_EXPIRY, where it is due (R17). The state after it is the state of its tick (R18). -/
def State.missExpiry (s : State) : State :=
  s.whenDue s.tb.expiryDue fun t =>
    let x := t.tb.expire
    t.timebaseEffect { x with tb := { x.tb with tickState := x.tb.state } }

/-- SLEW_ADJUSTMENT, where it is due (R13). -/
def State.slewAdjust (s : State) : State :=
  s.whenTickDue s.tb.slewDue fun t => t.setTb t.tb.adjust

/-! ### Commands and switches (R4-R6, R8) -/

/-- The three switches as written (R8). Sync enable turned from yes to no in LOCKED or HOLDOVER puts the
Timebase in FREE, discards pending slew and stops the miss timer. -/
def Timebase.setSwitches (t : Timebase) (syncEnable stepAllow freezeOnHoldover : Bool) : Timebase :=
  let u := { t with
    syncEnable := syncEnable, stepAllow := stepAllow, freezeOnHoldover := freezeOnHoldover }
  if t.syncEnable && !syncEnable && (t.state == .locked || t.state == .holdover) then
    { u with state := .free, slew := none, advance := .normal, missTimer := none }
  else u

/-- The switches of a TBCTL write that is accepted (R8): the command and they are one happening. -/
def State.withSwitches (s : State) (a b c : Bool) : State := s.setTb (s.tb.setSwitches a b c)

/-- START (R4). -/
def startOp (a b c : Bool) (s : State) : Except RefCode State :=
  if s.tb.state = .stopped then
    .ok ((s.setTb { s.tb with
      state := .free, missCount := 0, badCount := 0, missReached := false, badReached := false
      syncLevel := none }).withSwitches a b c)
  else .error .busy

/-- The Timebase after STOP (R5). In STOPPED it changes nothing. -/
def Timebase.stopped (t : Timebase) : Timebase :=
  if t.state = .stopped then t
  else { t with state := .stopped, slew := none, advance := .normal, missTimer := none }

/-- PRESET (R6): accepted while STOPPED with the active list empty and the commit state OPEN. -/
def presetOp (a b c : Bool) (s : State) : Except RefCode State :=
  if s.tb.state = .stopped ∧ s.sched.active = [] ∧ s.sched.commit = .open_ then
    .ok ((s.setTb { s.tb with counter := s.tb.tbset, epoch := s.tb.epoch + 1 }).runNotice.withSwitches
      a b c)
  else .error .busy

/-- A TBCTL write that carries no command (R8). What the Timebase has still to do of the tick is done first
(assumption log 8). -/
def switchesOp (a b c : Bool) (s : State) : Except RefCode State := .ok (s.missExpiry.withSwitches a b c)

/-! ### Settings (R7, R192) and TBSET (R6) -/

/-- The writable condition of TICKDIV (R7). -/
def Timebase.isStopped (t : Timebase) : Bool := t.state == .stopped

/-- The writable condition of the sync parameters: STOPPED, or sync disabled (R7). -/
def Timebase.syncWritable (t : Timebase) : Bool := t.state == .stopped || !t.syncEnable

/-- A setting write (R7): BUSY where its writable condition fails, then RANGE where `t` is none. -/
def settingOp (writable : Bool) (t : Option Timebase) (s : State) : Except RefCode State :=
  if !writable then .error .busy
  else match t with
    | none => .error .range
    | some t => .ok (s.setTb t)

/-- TICKDIV, 1-4096. -/
def tickDivOp (w : Word) (s : State) : Except RefCode State :=
  settingOp s.tb.isStopped
    (if w = 0 ∨ 4096 < w.toNat then none else some { s.tb with tickDiv := w }) s

/-- A word of SYNCPER (R192): checked on the period it would make, with the other word as it stands. -/
def syncPerOp (i : Fin 2) (w : Word) (s : State) : Except RefCode State :=
  let p : BitVec 24 := match i with
    | 0 => s.tb.period.extractLsb' 16 8 ++ w
    | 1 => w.extractLsb' 0 8 ++ s.tb.period.extractLsb' 0 16
  settingOp s.tb.syncWritable
    (if (i = 1 ∧ w.extractLsb' 8 8 ≠ 0) ∨ p = 0 then none else some { s.tb with period := p }) s

/-- SYNCTOL, 0-65535. -/
def syncTolOp (w : Word) (s : State) : Except RefCode State :=
  settingOp s.tb.syncWritable (some { s.tb with tolerance := w }) s

/-- SLEWLIM, 0-4095; the whole word is the value (R188). -/
def slewLimOp (w : Word) (s : State) : Except RefCode State :=
  settingOp s.tb.syncWritable
    (if 4095 < w.toNat then none else some { s.tb with slewLimit := w.extractLsb' 0 12 }) s

/-- SYNCLIM (R192): both limits, a limit of 0 out of range; bits 15:8 are ignored (R188). -/
def syncLimOp (w : Word) (s : State) : Except RefCode State :=
  settingOp s.tb.syncWritable
    (if w.extractLsb' 0 4 = 0 ∨ w.extractLsb' 4 4 = 0 then none
     else some { s.tb with missLimit := w.extractLsb' 0 4, badLimit := w.extractLsb' 4 4 }) s

/-- A word of TBSET, written at any time (R6). -/
def tbsetOp (i : Fin 3) (w : Word) (s : State) : Except RefCode State :=
  .ok (s.setTb { s.tb with tbset := setTimeWord s.tb.tbset i w })

/-! ### Meanings -/

/-- SLEW_ADJUSTMENT (R13). -/
def execSlewAdjustment (s : State) : Host.Outcome State Fault Refusal := .next s.slewAdjust

/-- MISS_TIMER_EXPIRY (R17). -/
def execMissTimerExpiry (s : State) : Host.Outcome State Fault Refusal := .next s.missExpiry

/-- START (R4). -/
def execStart (a b c : Bool) (s : State) : Host.Outcome State Fault Refusal :=
  hostWrite 0x30 (startOp a b c) s

/-- PRESET (R6). -/
def execPreset (a b c : Bool) (s : State) : Host.Outcome State Fault Refusal :=
  hostWrite 0x30 (presetOp a b c) s

/-- SWITCHES (R8). -/
def execSwitches (a b c : Bool) (s : State) : Host.Outcome State Fault Refusal :=
  hostWrite 0x30 (switchesOp a b c) s

/-- TIME_READ (R9): bits 15 to 0 of the time value go to the data bus and the whole value to the latch.
While the part is held in reset the read returns 0 (R177). -/
def execTimeRead (s : State) : Host.Outcome State Fault Refusal :=
  .next (if s.inReset then { s with readData := 0 }
    else
      let t := s.settled
      { t with readData := timeWord t.tb.counter 0, tb := { t.tb with latch := t.tb.counter } })

end Sys2Proof.Machine
end

