-- ==== Sys2Proof/Machine/Tick.lean ====
section
/-!
DEFINITION. TICK (R1): what a tick leaves to be done is done before the next one, and then the work of
every block that is part of the step TICK. The commands that end a tick's work before it is all taken (STOP,
HALT, SOFT_RESET) finish it by the same operations.
-/
namespace Sys2Proof.Machine

/-- What the Input Unit and the Reflex Unit have still to do of the most recent tick is done: the
qualifications and then the releases in line order (R28), the delays and then the widths in slot order. -/
def State.finishCapture (s : State) : State :=
  let s := forEach (fun n t => t.qualify n) s
  let s := forEach (fun n t => t.releaseIfDue n) s
  let s := forEach (fun i t => t.delayOut i) s
  forEach (fun i t => t.widthOut i) s

/-- The happenings of the most recent tick that are still due are taken, in a fixed order (assumption
log 2): the miss timer, the capture, the firings, the commit time, the age timers. -/
def State.finishTick (s : State) : State :=
  let s := s.missExpiry.finishCapture
  let s := (State.fireHeads s.sched.active.length s).commitReached
  forEach (fun g t => t.ageRunsOut g) s

/-- The most recent tick is finished, and then every waiting claim is taken (R55: "Every claim offered at a
tick is taken before the next tick"; assumption log 2). -/
def State.completeTick (s : State) : State :=
  let s := s.finishTick
  State.takeClaims s.claims.length s

/-- The work of the blocks at a tick once the Timebase has set its time value (R1): at a step the run
notice (R58) and, after it, the Schedule Unit's late entries (R137); the lines' samples (R28), and the
counting of the tick in every duration. -/
def State.blockTick (s : State) (samples : BitVec 64) (step : Option Time) (before : Time) : State :=
  let t := (s.tickLines samples step).countSlots.countAges
  match step with
  | none => t
  | some _ => t.runNotice.stepEntries before

/-- A tick of a running Timebase (R1): an adjustment that falls at it is taken if it has not been (R13),
the Timebase does its part, and hands the tick to every block. -/
def State.makeTick (s : State) (samples : BitVec 64) (sync expiryFirst : Bool) : State :=
  let s := s.slewAdjust
  let x := s.tb.tick sync expiryFirst
  (s.timebaseEffect x.effect).blockTick samples x.step x.before

/-- TICK (R1). While the Timebase is STOPPED it makes no tick. -/
def execTick (samples : BitVec 64) (sync expiryFirst : Bool) (s : State) :
    Host.Outcome State Fault Refusal :=
  .next (if s.tb.state = .stopped then s
    else s.completeTick.makeTick samples sync expiryFirst)

end Sys2Proof.Machine
end

