-- ==== Sys2Proof/Decode.lean ====
section
/-!
DEFINITION. The decoders of the register window: the address map (Section 10.2), the command row a host
write of one word spells, and the write that spells a host command. The rows of spec/opcode_table.json
give no bits, so `decodeTableWord` answers none for every word (assumption log 24).
-/
namespace Sys2Proof

/-- The word address of a register (Section 10.2). -/
def Register.addr : Register → Addr
  | .id => 0x00
  | .mode => 0x01
  | .softrst => 0x02
  | .errflag => 0x03
  | .erren => 0x04
  | .refcode => 0x05
  | .next => 0x06
  | .wsel => 0x07
  | .win i => BitVec.ofNat 8 (0x08 + i)
  | .ack g => BitVec.ofNat 8 (0x10 + g)
  | .gflush => 0x19
  | .delen => 0x1A
  | .girqen => 0x1B
  | .gattn => 0x1C
  | .gpres => 0x1D
  | .gstat g => BitVec.ofNat 8 (0x20 + g)
  | .tbctl => 0x30
  | .tbstat => 0x31
  | .time i => BitVec.ofNat 8 (0x32 + i)
  | .epoch => 0x35
  | .tickdiv => 0x36
  | .syncper i => BitVec.ofNat 8 (0x37 + i)
  | .synctol => 0x39
  | .slewlim => 0x3A
  | .synclim => 0x3B
  | .lasterr => 0x3C
  | .tbset i => BitVec.ofNat 8 (0x3D + i)
  | .inlvl i => BitVec.ofNat 8 (0x40 + i)
  | .insup i => BitVec.ofNat 8 (0x44 + i)
  | .outdrv i => BitVec.ofNat 8 (0x48 + i)
  | .outclm i => BitVec.ofNat 8 (0x4A + i)
  | .hostset i => BitVec.ofNat 8 (0x4C + i)
  | .hostclr i => BitVec.ofNat 8 (0x4E + i)
  | .frzctl => 0x50
  | .rfxcmd => 0x58
  | .rfxst i => BitVec.ofNat 8 (0x59 + i)
  | .scmd => 0x60
  | .sarg => 0x61
  | .sstat => 0x62
  | .scount => 0x63
  | .cat i => BitVec.ofNat 8 (0x64 + i)
  | .tsel => 0x70
  | .tidx => 0x71
  | .tcmd => 0x72
  | .tdata i => BitVec.ofNat 8 (0x80 + i)

/-- The words of a register of several words, or the registers of several groups, in order. -/
def Register.each (n : Nat) (f : Fin n → Register) : List Register := (List.finRange n).map f

/-- Every register of the map, in the order of the map. -/
def Register.all : List Register := List.flatten [
  [Register.id, Register.mode, Register.softrst, Register.errflag, Register.erren, Register.refcode,
    Register.next, Register.wsel],
  Register.each 8 Register.win,
  Register.each 9 Register.ack,
  [Register.gflush, Register.delen, Register.girqen, Register.gattn, Register.gpres],
  Register.each 9 Register.gstat,
  [Register.tbctl, Register.tbstat],
  Register.each 3 Register.time,
  [Register.epoch, Register.tickdiv],
  Register.each 2 Register.syncper,
  [Register.synctol, Register.slewlim, Register.synclim, Register.lasterr],
  Register.each 3 Register.tbset,
  Register.each 4 Register.inlvl,
  Register.each 4 Register.insup,
  Register.each 2 Register.outdrv,
  Register.each 2 Register.outclm,
  Register.each 2 Register.hostset,
  Register.each 2 Register.hostclr,
  [Register.frzctl, Register.rfxcmd],
  Register.each 4 Register.rfxst,
  [Register.scmd, Register.sarg, Register.sstat, Register.scount],
  Register.each 3 Register.cat,
  [Register.tsel, Register.tidx, Register.tcmd],
  Register.each 16 Register.tdata]

/-- The register at a word address; none where the map lists no register (R188). -/
def Register.ofAddr (a : Addr) : Option Register :=
  Register.all.find? (·.addr == a)

/-- The command row that a host write of `w` to the word address `a` spells (Section 10.2): the row of
its command code where the register carries a command of a row, and REGISTER_WRITE otherwise ("a write
to a register that has no row of its own", and the codes that name no row's command). -/
def commandOfWrite (a : Addr) (w : Word) : Instr :=
  match Register.ofAddr a with
  | some .mode =>
    match (w.extractLsb' 1 2).toNat with
    | 1 => .run
    | 2 => .halt
    | _ => .registerWrite a w
  | some .softrst => if w = 1 then .softReset else .registerWrite a w
  | some .errflag => .errflagClear w
  | some (.ack g) => .acknowledge g w
  | some .gflush => .flush w
  | some .delen => .delenWrite w
  | some .tbctl =>
    match (w.extractLsb' 0 2).toNat with
    | 1 => .start (w.getLsbD 4) (w.getLsbD 5) (w.getLsbD 6)
    | 2 => .stop (w.getLsbD 4) (w.getLsbD 5) (w.getLsbD 6)
    | 3 => .preset (w.getLsbD 4) (w.getLsbD 5) (w.getLsbD 6)
    | _ => .switches (w.getLsbD 4) (w.getLsbD 5) (w.getLsbD 6)
  | some (.hostset i) => .hostset i w
  | some (.hostclr i) => .hostclr i w
  | some .frzctl =>
    match (w.extractLsb' 0 2).toNat with
    | 1 => .freeze
    | 2 => .unfreeze
    | _ => .registerWrite a w
  | some .rfxcmd =>
    match (w.extractLsb' 8 2).toNat with
    | 1 => .arm (w.extractLsb' 0 4).toFin
    | 2 => .disarm (w.extractLsb' 0 4).toFin
    | 3 => .clear (w.extractLsb' 0 4).toFin
    | _ => .registerWrite a w
  | some .scmd =>
    match (w.extractLsb' 0 3).toNat with
    | 1 => .cancel
    | 2 => .clearAll
    | 3 => .discard
    | 4 => .commitNow
    | 5 => .commitAt
    | 6 => .abort
    | _ => .registerWrite a w
  | some .tcmd =>
    match (w.extractLsb' 0 2).toNat with
    | 1 => .read
    | 2 => .write
    | 3 => .append
    | _ => .registerWrite a w
  | _ => .registerWrite a w

/-- The bits of the three switches in a TBCTL word. -/
def switchBits (syncEnable stepAllow freezeOnHoldover : Bool) : Word :=
  (if syncEnable then 0x10 else 0) ||| (if stepAllow then 0x20 else 0)
    ||| (if freezeOnHoldover then 0x40 else 0)

/-- The host write (word address and word, every bit the map does not name 0) that spells a command;
none for the commands that are no host write: the happenings of the part, the pins, and the read of
TIME0. -/
def writeOfCommand : Instr → Option (Addr × Word)
  | .tick _ _ _ => none
  | .slewAdjustment => none
  | .missTimerExpiry => none
  | .start a b c => some (0x30, 1 ||| switchBits a b c)
  | .stop a b c => some (0x30, 2 ||| switchBits a b c)
  | .preset a b c => some (0x30, 3 ||| switchBits a b c)
  | .switches a b c => some (0x30, switchBits a b c)
  | .timeRead => none
  | .qualification _ => none
  | .release _ => none
  | .delayRunsOut _ => none
  | .widthRunsOut _ => none
  | .arm s => some (0x58, BitVec.ofNat 16 (0x100 + s))
  | .disarm s => some (0x58, BitVec.ofNat 16 (0x200 + s))
  | .clear s => some (0x58, BitVec.ofNat 16 (0x300 + s))
  | .firing => none
  | .cancel => some (0x60, 1)
  | .clearAll => some (0x60, 2)
  | .discard => some (0x60, 3)
  | .commitNow => some (0x60, 4)
  | .commitAt => some (0x60, 5)
  | .abort => some (0x60, 6)
  | .commitTimeReached => none
  | .insert => none
  | .cancelOperation => none
  | .clearAllOperation => none
  | .applicationFinish => none
  | .claim => none
  | .acknowledge g w => some (BitVec.ofNat 8 (0x10 + g), w)
  | .flush w => some (0x19, w)
  | .delenWrite w => some (0x1A, w)
  | .ageTimerRunsOut _ => none
  | .hostset i w => some (BitVec.ofNat 8 (0x4C + i), w)
  | .hostclr i w => some (BitVec.ofNat 8 (0x4E + i), w)
  | .frznFall => none
  | .frznRise => none
  | .freeze => some (0x50, 1)
  | .unfreeze => some (0x50, 2)
  | .read => some (0x72, 1)
  | .write => some (0x72, 2)
  | .append => some (0x72, 3)
  | .run => some (0x01, 2)
  | .halt => some (0x01, 4)
  | .softReset => some (0x02, 1)
  | .deviceReset _ => none
  | .errflagClear w => some (0x03, w)
  | .registerWrite a w => some (a, w)

/-- The command a word of the opcode table spells. No row of spec/opcode_table.json gives a bit (its
"fields" are empty and it has no "fixed"), so no word spells a command. -/
def decodeTableWord (_nbits _w : Nat) : Option Instr := none

end Sys2Proof
end

