-- ==== Sys2Proof/Machine/Modes.lean ====
section
/-!
DEFINITION. Mode and Error Control (Chapter 9): RUN and HALT, STOP, the soft reset and the device reset, the
clearing of error flags, and the FRZn and freeze commands as commands of the queue. A command that would
take away what the most recent tick has still to do finds that work done: the tick was taken first.
-/
namespace Sys2Proof.Machine

/-! ### RUN and HALT (R171, R172) -/

/-- RUN (R171): refused with MODE while the Timebase is STOPPED; in CONFIG mode every IDLE line enters
LIVE; in RUN mode it changes nothing. -/
def runOp (s : State) : Except RefCode State :=
  if s.tb.state = .stopped then .error .mode
  else if s.mode = .run then .ok s
  else .ok { s with mode := .run, lines := s.lines.map Line.onRun }

/-- The halt itself (R172): the mode becomes CONFIG, the lines are idled (R26) and the slots disarmed in
ascending order (R125). -/
def State.halt (s : State) : State :=
  forEach (fun i t => t.disarmSlot i .halted) { s with mode := .config, lines := s.lines.map Line.onHalt }

/-- HALT (R172): in CONFIG mode it changes nothing. A tick taken before it has its qualified changes
recorded and passed on and its slot happenings done in RUN mode (R173). -/
def haltOp (s : State) : Except RefCode State :=
  if s.mode = .config then .ok s else .ok s.finishCapture.halt

/-! ### STOP (R5) -/

/-- STOP (R5): refused with MODE in RUN mode. No entry fires while the Timebase is STOPPED (R145) and no
duration runs out (R1), so what the most recent tick has still to do is done first (assumption log 8). -/
def stopOp (a b c : Bool) (s : State) : Except RefCode State :=
  if s.mode = .run then .error .mode
  else
    let t := s.finishTick
    .ok ((t.setTb t.tb.stopped).withSwitches a b c)

/-! ### Soft reset (R174, R175) -/

/-- PIN is added at the end of a reset where FRZn is low (R97, R102, R103). -/
def State.pinAtResetEnd (s : State) : State :=
  if s.frzn then s else s.addCause .pin false s.eventStamp

/-- The reset values of R175's steps 1 to 8. The Timebase keeps its state (R21), the safe values and
drive enables are kept and the claimed values become the safe values (R103), and the pins stay. -/
def State.softResetValues (s : State) : State :=
  { State.reset with
    inReset := s.inReset
    frzn := s.frzn
    readData := s.readData
    tb := s.tb
    outputs := s.outputs.map fun o => { owner := .host, safe := o.safe, drive := o.drive, claimed := o.safe }
    drawn := s.drawn
    pending := s.pending }

/-- A soft reset (R175). The work of a tick taken before it is done in the state before the reset (R176). -/
def State.softReset (s : State) : State := s.finishTick.softResetValues.pinAtResetEnd

/-- SOFTRST written with 1 (R174). -/
def softResetOp (s : State) : Except RefCode State := .ok s.softReset

/-! ### Device reset (R177) -/

/-- The device reset values of every block; the FRZn level, the count of open values drawn and the
waiting commands are not the part's to reset. -/
def State.deviceResetValues (s : State) : State :=
  { State.reset with frzn := s.frzn, drawn := s.drawn, pending := s.pending }

/-- RESETn takes a level (R177): low holds the part in reset; going high ends the reset, and PIN is
added where FRZn is low. RESETn high on a part not held in reset is no event. -/
def State.deviceReset (s : State) (resetn : Bool) : State :=
  if !resetn then { s.deviceResetValues with inReset := true }
  else if s.inReset then s.deviceResetValues.pinAtResetEnd
  else s

/-! ### Error flags (R179, R180) -/

/-- A write to ERRFLAG clears each flag whose bit is written 1; bits 7 to 15 are ignored (R179). -/
def errflagOp (w : Word) (s : State) : Except RefCode State :=
  .ok { s with errFlags := s.errFlags &&& ~~~(w.extractLsb' 0 7) }

/-- A write to ERREN; bits 7 to 15 are ignored (R180). -/
def errenOp (w : Word) (s : State) : Except RefCode State := .ok { s with errEnable := w.extractLsb' 0 7 }

/-! ### Meanings -/

/-- HOSTSET (R91). -/
def execHostset (half : Fin 2) (w : Word) (s : State) : Host.Outcome State Fault Refusal :=
  hostWrite (BitVec.ofNat 8 (0x4C + half)) (fun t => .ok (t.hostClaim true half w)) s

/-- HOSTCLR (R91). -/
def execHostclr (half : Fin 2) (w : Word) (s : State) : Host.Outcome State Fault Refusal :=
  hostWrite (BitVec.ofNat 8 (0x4E + half)) (fun t => .ok (t.hostClaim false half w)) s

/-- FRZN_FALL (R97). -/
def execFrznFall (s : State) : Host.Outcome State Fault Refusal := .next s.frznFalls

/-- FRZN_RISE (R97). -/
def execFrznRise (s : State) : Host.Outcome State Fault Refusal := .next s.frznRises

/-- FREEZE (R98). -/
def execFreeze (s : State) : Host.Outcome State Fault Refusal := hostWrite 0x50 freezeOp s

/-- UNFREEZE (R100). -/
def execUnfreeze (s : State) : Host.Outcome State Fault Refusal := hostWrite 0x50 unfreezeOp s

/-- RUN (R171). -/
def execRun (s : State) : Host.Outcome State Fault Refusal := hostWrite 0x01 runOp s

/-- HALT (R172). -/
def execHalt (s : State) : Host.Outcome State Fault Refusal := hostWrite 0x01 haltOp s

/-- STOP (R5). -/
def execStop (a b c : Bool) (s : State) : Host.Outcome State Fault Refusal :=
  hostWrite 0x30 (stopOp a b c) s

/-- SOFT_RESET (R175). -/
def execSoftReset (s : State) : Host.Outcome State Fault Refusal := hostWrite 0x02 softResetOp s

/-- DEVICE_RESET (R177). -/
def execDeviceReset (resetn : Bool) (s : State) : Host.Outcome State Fault Refusal :=
  .next (s.deviceReset resetn)

/-- ERRFLAG_CLEAR (R179). -/
def execErrflagClear (w : Word) (s : State) : Host.Outcome State Fault Refusal :=
  hostWrite 0x03 (errflagOp w) s

end Sys2Proof.Machine
end

