-- ==== Sys2Proof/Machine/Operands.lean ====
section
/-!
DEFINITION. The layouts of Section 10.4, both ways: the words of the event record and of every table
entry as the host reads them, and the fields taken from the data buffer by WRITE and APPEND.
-/
namespace Sys2Proof.Machine

/-! ### Words to fields -/

/-- The 16 words of the table data buffer (R194). -/
abbrev Buffer := Bank Word 16

/-- A 24-bit field in two words; none where an upper bit of the upper word is set (Section 10.4). -/
def field24 (lo hi : Word) : Option (BitVec 24) :=
  if hi.extractLsb' 8 8 = 0 then some (hi.extractLsb' 0 8 ++ lo) else none

/-- A 24-bit field that must not be 0. -/
def field24Pos (lo hi : Word) : Option (BitVec 24) :=
  match field24 lo hi with
  | none => none
  | some v => if v = 0 then none else some v

/-- The codes of an edge select: RISE 1, FALL 2, BOTH 3; 0 names no value. -/
def EdgeSelect.ofCode (c : BitVec 2) : Option EdgeSelect :=
  match c.toNat with
  | 1 => some .rise
  | 2 => some .fall
  | 3 => some .both
  | _ => none

/-- The code of an edge select. -/
def EdgeSelect.code : EdgeSelect → Word
  | .rise => 1
  | .fall => 2
  | .both => 3

/-- The mode field of a line entry, bit 0 of word 0. -/
def lineOn (b : Buffer) : Bool := (b.get 0).getLsbD 0

/-- A line entry taken from the buffer; none where a field is out of its range (R22). -/
def lineFields (b : Buffer) : Option LineConfig := do
  let edge ← EdgeSelect.ofCode ((b.get 0).extractLsb' 1 2)
  let window ← field24Pos (b.get 1) (b.get 2)
  let quiet ← field24Pos (b.get 3) (b.get 4)
  return {
    on := lineOn b, edge := edge, urgent := (b.get 0).getLsbD 3
    filter := (b.get 0).extractLsb' 4 4, chatterLimit := (b.get 0).extractLsb' 8 8
    chatterWindow := window, quietTime := quiet }

/-- The codes of a trigger edge: RISE 1, FALL 2, EITHER 3; 0 names no value. -/
def TriggerEdge.ofCode (c : BitVec 2) : Option TriggerEdge :=
  match c.toNat with
  | 1 => some .rise
  | 2 => some .fall
  | 3 => some .either
  | _ => none

/-- The code of a trigger edge. -/
def TriggerEdge.code : TriggerEdge → Word
  | .rise => 1
  | .fall => 2
  | .either => 3

/-- The codes of a retrigger policy: IGNORE 0, RESTART 1, EXTEND 2; 3 names no value. -/
def Retrigger.ofCode (c : BitVec 2) : Option Retrigger :=
  match c.toNat with
  | 0 => some .ignore
  | 1 => some .restart
  | 2 => some .extend
  | _ => none

/-- The code of a retrigger policy. -/
def Retrigger.code : Retrigger → Word
  | .ignore => 0
  | .restart => 1
  | .extend => 2

/-- A slot's configuration taken from the buffer; none where a field is out of its range (R105). -/
def slotFields (b : Buffer) : Option SlotConfig := do
  let edge ← TriggerEdge.ofCode ((b.get 0).extractLsb' 6 2)
  let delay ← field24 (b.get 1) (b.get 2)
  let width ← field24 (b.get 3) (b.get 4)
  let policy ← Retrigger.ofCode ((b.get 7).extractLsb' 0 2)
  return {
    trigger := ((b.get 0).extractLsb' 0 6).toFin, edge := edge
    gate := if (b.get 0).getLsbD 8 then
        some ⟨((b.get 0).extractLsb' 9 6).toFin, (b.get 0).getLsbD 15⟩ else none
    delay := delay, width := width, mask := b.get 6 ++ b.get 5, policy := policy
    countLimit := (b.get 7).extractLsb' 8 8, report := (b.get 7).getLsbD 2 }

/-- An output entry taken from the buffer; none for an owner code of 3 (R88). -/
def outFields (b : Buffer) : Option OutEntry :=
  let make (o : Owner) : Option OutEntry := some ⟨o, (b.get 0).getLsbD 4, (b.get 0).getLsbD 5⟩
  match ((b.get 0).extractLsb' 0 2).toNat with
  | 0 => make .host
  | 1 => make .schedule
  | 2 => make .reflex
  | _ => none

/-- A quota entry taken from the buffer; none where a field is out of its range (R52, R53). -/
def quotaFields (g : GroupNo) (b : Buffer) : Option Quota :=
  let make (p : Policy) : Option Quota :=
    let q : Quota := {
      reserve := b.get 0, limit := b.get 1, policy := p, threshold := b.get 3, age := b.get 4 }
    if q.reserve.toNat ≤ 512 ∧ 1 ≤ q.limit.toNat ∧ q.limit.toNat ≤ 512
        ∧ q.reserve.toNat ≤ q.limit.toNat ∧ 1 ≤ q.threshold.toNat ∧ q.threshold.toNat ≤ 64
        ∧ (g = 8 → Config.systemReserveMin ≤ q.reserve.toNat) then some q else none
  match ((b.get 2).extractLsb' 0 2).toNat with
  | 0 => make .dropNew
  | 1 => make .dropOldest
  | _ => none

/-- The action of a schedule entry: SET 0, CLEAR 1, TOGGLE 2, WRITE 3 with the value words; 4 to 7 name
no action (R151, R198). -/
def actionOf (code : BitVec 3) (value : BitVec 32) : Option Action :=
  match code.toNat with
  | 0 => some .set
  | 1 => some .clear
  | 2 => some .toggle
  | 3 => some (.write value)
  | _ => none

/-- The repeat of a schedule entry: absent, or with a period that must not be 0 (R151, R198). -/
def repOf (present : Bool) (period : BitVec 32) (count : Word) : Option (Option Rep) :=
  if !present then some none
  else if period = 0 then none
  else some (some ⟨period, count⟩)

/-- The late policy of a schedule entry: FIRE 0, SKIP 1 (R151, R198). -/
def latePolicyOf (code : BitVec 2) : Option LatePolicy :=
  match code.toNat with
  | 0 => some .fire
  | 1 => some .skip
  | _ => none

/-- A schedule entry taken from words 0 to 11 of the buffer; none where a field is out of its range
(R151, R198). -/
def entryFields (b : Buffer) : Option Entry := do
  let action ← actionOf ((b.get 4).extractLsb' 0 3) (b.get 8 ++ b.get 7)
  let rep ← repOf ((b.get 4).getLsbD 4) (b.get 10 ++ b.get 9) (b.get 11)
  let late ← latePolicyOf ((b.get 4).extractLsb' 6 2)
  if b.get 3 = 0 ∨ (b.get 6 ++ b.get 5 : BitVec 32) = 0 then none
  else some {
    due := b.get 2 ++ b.get 1 ++ b.get 0, tag := b.get 3, action := action
    mask := b.get 6 ++ b.get 5, rep := rep, report := (b.get 4).getLsbD 5, late := late }

/-! ### Fields to words -/

/-- A buffer of the words given, 0 in every word beyond them (R196). -/
def bufferOf (ws : List Word) : Buffer := Bank.ofFn fun i => ws.getD i.val 0

/-- Words 0 to n - 1 of a field wider than a word, least significant first (Section 10.4). -/
def low16 {w : Nat} (v : BitVec w) : Word := v.extractLsb' 0 16
def mid16 {w : Nat} (v : BitVec w) : Word := v.extractLsb' 16 16
def high16 {w : Nat} (v : BitVec w) : Word := v.extractLsb' 32 16

/-- The code of a line state. -/
def LineState.code : LineState → Word
  | .off => 0
  | .idle => 1
  | .live => 2
  | .suppressed => 3

/-- The status word of a line: line state, qualified level, PENDING, pending level, stable count. -/
def Line.statusWord (l : Line) : Word :=
  l.state.code ||| bitAt l.level 2 |||
    (match l.qualifier with
    | .stable => 0
    | .pending lvl _ n => bitAt true 3 ||| bitAt lvl 4 ||| BitVec.ofNat 16 (32 * n))

/-- The words of a line entry. -/
def Line.words (l : Line) : List Word :=
  [bitAt l.config.on 0 ||| l.config.edge.code <<< 1 ||| bitAt l.config.urgent 3
      ||| l.config.filter.zeroExtend 16 <<< 4 ||| l.config.chatterLimit.zeroExtend 16 <<< 8,
    low16 l.config.chatterWindow, mid16 l.config.chatterWindow,
    low16 l.config.quietTime, mid16 l.config.quietTime,
    l.statusWord, low16 l.lastOnset, mid16 l.lastOnset, high16 l.lastOnset]

/-- The code of a slot state (R126). -/
def SlotState.code : SlotState → Word
  | .disarmed => 0
  | .armed => 1
  | .delaying => 2
  | .active => 3
  | .holding => 4

/-- The gate bits of word 0 of a slot: with the gate absent they read 0. -/
def gateBits (g : Option Gate) : Word :=
  match g with
  | none => 0
  | some g => bitAt true 8 ||| BitVec.ofNat 16 (512 * g.line.val) ||| bitAt g.level 15

/-- The words of a reflex slot. -/
def Slot.words (x : Slot) : List Word :=
  [BitVec.ofNat 16 x.config.trigger.val ||| x.config.edge.code <<< 6 ||| gateBits x.config.gate,
    low16 x.config.delay, mid16 x.config.delay, low16 x.config.width, mid16 x.config.width,
    low16 x.config.mask, mid16 x.config.mask,
    x.config.policy.code ||| bitAt x.config.report 2 ||| x.config.countLimit.zeroExtend 16 <<< 8,
    x.state.code, x.firings]

/-- The code of an owner. -/
def Owner.code : Owner → Word
  | .host => 0
  | .schedule => 1
  | .reflex => 2

/-- The words of an output entry (R87): configured items, then claimed and driven value. -/
def State.outWords (s : State) (n : OutNo) : List Word :=
  let o := s.outputs.get n
  [o.owner.code ||| bitAt o.safe 4 ||| bitAt o.drive 5, bitAt o.claimed 0 ||| bitAt (s.driven n) 1]

/-- The words of a quota entry (R52): fields, then the queue's count and pending-loss count. -/
def Queue.words (q : Queue) : List Word :=
  [q.quota.reserve, q.quota.limit, (match q.quota.policy with | .dropNew => 0 | .dropOldest => 1),
    q.quota.threshold, q.quota.age, BitVec.ofNat 16 q.count, q.pendingLoss.zeroExtend 16]

/-- The code of an action, and the value words, 0 for an action other than WRITE (R142, R150). -/
def Action.code : Action → Word
  | .set => 0
  | .clear => 1
  | .toggle => 2
  | .write _ => 3

def Action.value : Action → BitVec 32
  | .write v => v
  | _ => 0

/-- The twelve words of a schedule entry; period and count 0 when the repeat is absent (R142, R150). -/
def Entry.words (e : Entry) : List Word :=
  [low16 e.due, mid16 e.due, high16 e.due, e.tag,
    e.action.code ||| bitAt e.rep.isSome 4 ||| bitAt e.report 5 ||| bitAt (e.late == .skip) 6,
    low16 e.mask, mid16 e.mask, low16 e.action.value, mid16 e.action.value,
    (match e.rep with | none => 0 | some r => low16 r.period),
    (match e.rep with | none => 0 | some r => mid16 r.period),
    (match e.rep with | none => 0 | some r => r.count)]

/-- The words of a staged operation (R150): an INSERT as appended, a CANCEL with its tag in word 3, and
the operation kind in word 12. -/
def StagedOp.words : StagedOp → List Word
  | .insert e => e.words ++ [1]
  | .cancel tag => [0, 0, 0, tag, 0, 0, 0, 0, 0, 0, 0, 0, 2]
  | .clearAll => [0, 0, 0, 0, 0, 0, 0, 0, 0, 0, 0, 0, 3]

/-! ### The event record (R199) -/

/-- The value of a kind (R46). -/
def Kind.value : Kind → Word
  | .edge => 1
  | .level => 2
  | .action => 8
  | .reflexOn => 9
  | .reflexOff => 10
  | .commit => 11
  | .suppress => 12
  | .release => 13
  | .sync => 14
  | .freeze => 15

/-- The kinds whose WIN5 and WIN6 carry the interval (R199). -/
def Kind.showsInterval (k : Kind) : Bool := k == .edge || k == .level

/-- The flags of WIN7. -/
def RecFlags.word (f : RecFlags) : Word :=
  bitAt f.rise 8 ||| bitAt f.first 9 ||| bitAt f.sat 10 ||| bitAt f.level 11 ||| bitAt f.urgent 12
    ||| bitAt f.stepped 13 ||| bitAt f.unsync 14 ||| bitAt f.late 15

/-- The eight window words of a record (R199). -/
def Record.words (r : Record) : List Word :=
  [r.kind.value ||| r.epoch.zeroExtend 16 <<< 4 ||| r.source.zeroExtend 16 <<< 8,
    r.seq, low16 r.time, mid16 r.time, high16 r.time,
    if r.kind.showsInterval then low16 r.interval else r.tag,
    if r.kind.showsInterval then mid16 r.interval else r.detail,
    r.gap.zeroExtend 16 ||| r.flags.word]

/-- Window word i of the selected group: its presented record, and 0 where it has none (R72). -/
def State.windowWord (s : State) (i : Fin 8) : Word :=
  match s.presentedRecord s.wsel with
  | none => 0
  | some r => r.words.getD i.val 0

end Sys2Proof.Machine
end

