-- ==== Sys2Proof/Machine/Window.lean ====
section
/-!
DEFINITION. The register window (Chapter 10): the table access port, the write of every register, and the
read view of every register.
-/
namespace Sys2Proof.Machine

/-! ### Quota entry writes (R53) -/

/-- The accounting check of a quota write, on the pool with the written quota in place (R53): the
reserves add up to more than 512, the queue holds more than its new limit, or the free slots are fewer
than the unused reserves. -/
def State.quotaBreaks (t : State) (g : GroupNo) : Bool :=
  decide (Config.poolSlots < sumQueues t.queues fun _ q => q.quota.reserve.toNat)
    || decide ((t.queues.get g).quota.limit.toNat < (t.queues.get g).count)
    || decide (t.freeSlots < sumQueues t.queues fun _ q => q.unused)

/-- A write of QUOTA table entry g (R53): mode, range, accounting. -/
def writeQuotaOp (g : GroupNo) (q : Option Quota) (s : State) : Except RefCode State :=
  if s.mode = .run then .error .mode
  else match q with
    | none => .error .range
    | some q =>
      let t := s.setQueue g { s.queues.get g with quota := q }
      if t.quotaBreaks g then .error .quota else .ok t

/-! ### Table commands (R195-R198) -/

/-- An index of a table of n entries; none at or above the extent (R195). -/
def indexIn (n : Nat) (i : BitVec 8) : Option (Fin n) :=
  if h : i.toNat < n then some ⟨i.toNat, h⟩ else none

/-- The words a READ of the selected entry puts into the buffer; none where the index of a fixed table is
past its extent (R195). Past the end of STAGE or SCHED every word is 0 (R196). -/
def State.readEntry (s : State) : Option (List Word) :=
  match s.tsel with
  | .line => (indexIn 64 s.tidx).map fun n => (s.lines.get n).words
  | .reflex => (indexIn 16 s.tidx).map fun i => (s.slots.get i).words
  | .output => (indexIn 32 s.tidx).map fun n => s.outWords n
  | .quota => (indexIn 9 s.tidx).map fun g => (s.queues.get g).words
  | .stage => some (match s.sched.staging[s.tidx.toNat]? with
    | none => []
    | some o => o.words)
  | .sched => some (match s.sched.active[s.tidx.toNat]? with
    | none => []
    | some a => a.entry.words)

/-- READ (R196): all sixteen words of the buffer are filled. -/
def readOp (s : State) : Except RefCode State :=
  match s.readEntry with
  | none => .error .range
  | some ws => .ok { s with tdata := bufferOf ws }

/-- WRITE (R197): table, index, then the owner's checks. -/
def writeOp (s : State) : Except RefCode State :=
  match s.tsel with
  | .line =>
    match indexIn 64 s.tidx with
    | none => .error .range
    | some n => writeLineOp n (lineOn s.tdata) (lineFields s.tdata) s
  | .reflex =>
    match indexIn 16 s.tidx with
    | none => .error .range
    | some i => writeSlotOp i (slotFields s.tdata) s
  | .output =>
    match indexIn 32 s.tidx with
    | none => .error .range
    | some n =>
      match outFields s.tdata with
      | none => .error .range
      | some e => .ok (s.writeOut n e)
  | .quota =>
    match indexIn 9 s.tidx with
    | none => .error .range
    | some g => writeQuotaOp g (quotaFields g s.tdata) s
  | .stage => .error .readonly
  | .sched => .error .readonly

/-- APPEND (R195, R198): to STAGE an INSERT of words 0 to 11; READONLY for SCHED, RANGE for the rest. -/
def appendOp (s : State) : Except RefCode State :=
  match s.tsel with
  | .stage => stageOp ((entryFields s.tdata).map .insert) s
  | .sched => .error .readonly
  | .line => .error .range
  | .reflex => .error .range
  | .output => .error .range
  | .quota => .error .range

/-! ### Writes of the window's own registers (R193, R194) -/

/-- TSEL: 0 to 5 name a table (R193). -/
def tselOp (w : Word) (s : State) : Except RefCode State :=
  match w.toNat with
  | 0 => .ok { s with tsel := .line }
  | 1 => .ok { s with tsel := .reflex }
  | 2 => .ok { s with tsel := .output }
  | 3 => .ok { s with tsel := .quota }
  | 4 => .ok { s with tsel := .stage }
  | 5 => .ok { s with tsel := .sched }
  | _ => .error .range

/-- TIDX: 0 to 255 (R193). -/
def tidxOp (w : Word) (s : State) : Except RefCode State :=
  if w.toNat < 256 then .ok { s with tidx := w.extractLsb' 0 8 } else .error .range

/-- A TDATA word, never refused (R194). -/
def tdataOp (i : Fin 16) (w : Word) (s : State) : Except RefCode State :=
  .ok { s with tdata := s.tdata.set i w }

/-! ### Command registers by their written word -/

/-- A MODE write: bits 2:1 are the command (R170). -/
def modeOp (w : Word) (s : State) : Except RefCode State :=
  match (w.extractLsb' 1 2).toNat with
  | 0 => .ok s
  | 1 => runOp s
  | 2 => haltOp s
  | _ => .error .range

/-- A SOFTRST write: the whole word is the value (R174). -/
def softrstOp (w : Word) (s : State) : Except RefCode State :=
  if w = 0 then .ok s else if w = 1 then softResetOp s else .error .range

/-- A TBCTL write: bits 1:0 are the command, bits 4 to 6 the switches (R8). -/
def tbctlOp (w : Word) (s : State) : Except RefCode State :=
  match (w.extractLsb' 0 2).toNat with
  | 1 => startOp (w.getLsbD 4) (w.getLsbD 5) (w.getLsbD 6) s
  | 2 => stopOp (w.getLsbD 4) (w.getLsbD 5) (w.getLsbD 6) s
  | 3 => presetOp (w.getLsbD 4) (w.getLsbD 5) (w.getLsbD 6) s
  | _ => switchesOp (w.getLsbD 4) (w.getLsbD 5) (w.getLsbD 6) s

/-- An FRZCTL write: bits 1:0 are the command (R98). -/
def frzctlOp (w : Word) (s : State) : Except RefCode State :=
  match (w.extractLsb' 0 2).toNat with
  | 0 => .ok s
  | 1 => freezeOp s
  | 2 => unfreezeOp s
  | _ => .error .range

/-- An RFXCMD write: bits 3:0 the slot, bits 9:8 the command (R118). -/
def rfxcmdOp (w : Word) (s : State) : Except RefCode State :=
  match (w.extractLsb' 8 2).toNat with
  | 1 => armOp (w.extractLsb' 0 4).toFin s
  | 2 => disarmOp (w.extractLsb' 0 4).toFin s
  | 3 => clearOp (w.extractLsb' 0 4).toFin s
  | _ => .error .range

/-- An SCMD write: bits 2:0 are the command (R152). -/
def scmdOp (w : Word) (s : State) : Except RefCode State :=
  match (w.extractLsb' 0 3).toNat with
  | 1 => cancelOp s
  | 2 => clearAllOp s
  | 3 => discardOp s
  | 4 => commitNowOp s
  | 5 => commitAtOp s
  | 6 => abortOp s
  | _ => .error .range

/-- A TCMD write: bits 1:0 are the command (R195). -/
def tcmdOp (w : Word) (s : State) : Except RefCode State :=
  match (w.extractLsb' 0 2).toNat with
  | 1 => readOp s
  | 2 => writeOp s
  | 3 => appendOp s
  | _ => .error .range

/-! ### The write of every register (R188) -/

/-- A host write of a word to a register, taken by its owner according to the register's type (R188). -/
def registerOp : Register → Word → State → Except RefCode State
  | .id, _, _ => .error .readonly
  | .mode, w, s => modeOp w s
  | .softrst, w, s => softrstOp w s
  | .errflag, w, s => errflagOp w s
  | .erren, w, s => errenOp w s
  | .refcode, _, _ => .error .readonly
  | .next, _, _ => .error .readonly
  | .wsel, w, s => wselOp w s
  | .win _, _, _ => .error .readonly
  | .ack g, w, s => ackOp g w s
  | .gflush, w, s => flushOp w s
  | .delen, w, s => delenOp w s
  | .girqen, w, s => girqenOp w s
  | .gattn, _, _ => .error .readonly
  | .gpres, _, _ => .error .readonly
  | .gstat _, _, _ => .error .readonly
  | .tbctl, w, s => tbctlOp w s
  | .tbstat, _, _ => .error .readonly
  | .time _, _, _ => .error .readonly
  | .epoch, _, _ => .error .readonly
  | .tickdiv, w, s => tickDivOp w s
  | .syncper i, w, s => syncPerOp i w s
  | .synctol, w, s => syncTolOp w s
  | .slewlim, w, s => slewLimOp w s
  | .synclim, w, s => syncLimOp w s
  | .lasterr, _, _ => .error .readonly
  | .tbset i, w, s => tbsetOp i w s
  | .inlvl _, _, _ => .error .readonly
  | .insup _, _, _ => .error .readonly
  | .outdrv _, _, _ => .error .readonly
  | .outclm _, _, _ => .error .readonly
  | .hostset i, w, s => .ok (s.hostClaim true i w)
  | .hostclr i, w, s => .ok (s.hostClaim false i w)
  | .frzctl, w, s => frzctlOp w s
  | .rfxcmd, w, s => rfxcmdOp w s
  | .rfxst _, _, _ => .error .readonly
  | .scmd, w, s => scmdOp w s
  | .sarg, w, s => sargOp w s
  | .sstat, _, _ => .error .readonly
  | .scount, _, _ => .error .readonly
  | .cat i, w, s => catOp i w s
  | .tsel, w, s => tselOp w s
  | .tidx, w, s => tidxOp w s
  | .tcmd, w, s => tcmdOp w s
  | .tdata i, w, s => tdataOp i w s

/-- A host write to a word address: UNMAPPED where the map lists no register (R188). -/
def addressOp (a : Addr) (w : Word) (s : State) : Except RefCode State :=
  match Register.ofAddr a with
  | none => .error .unmapped
  | some r => registerOp r w s

/-! ### The read of every register (R186, R188) -/

/-- TBSTAT (R191). -/
def Timebase.statusWord (t : Timebase) : Word :=
  (match t.state with | .stopped => 0 | .free => 1 | .locked => 2 | .holdover => 3)
    ||| bitAt t.slewPending 2 ||| t.missCount.zeroExtend 16 <<< 4 ||| t.badCount.zeroExtend 16 <<< 8
    ||| bitAt t.missReached 12 ||| bitAt t.badReached 13

/-- LASTERR (R190): the phase error as a 16-bit signed value, held at 32,767 and -32,768. -/
def lastErrWord (e : Int) : Word := BitVec.ofInt 16 (max (-32768) (min 32767 e))

/-- The code of a delivery state in GSTAT (Section 10.2). -/
def DeliveryState.code : DeliveryState → Word
  | .empty => 0
  | .waiting => 1
  | .presented => 2

/-- A GSTAT word: bits 15:14 the delivery state, bits 9:0 the count (R84). -/
def State.gstatWord (s : State) (g : GroupNo) : Word :=
  (s.deliveryState g).code <<< 14 ||| (BitVec.ofNat 10 (s.queues.get g).count).zeroExtend 16

/-- FRZCTL as read: FROZEN, the causes and the FRZn level. -/
def State.frzctlWord (s : State) : Word :=
  bitAt s.frozen 4 ||| bitAt s.causes.pin 5 ||| bitAt s.causes.command 6 ||| bitAt s.causes.holdover 7
    ||| bitAt s.frzn 8

/-- RFXST word i: four slots in four-bit fields (R126). -/
def State.rfxstWord (s : State) (i : Fin 4) : Word :=
  (s.slots.get ⟨4 * i.val, by omega⟩).state.code
    ||| (s.slots.get ⟨4 * i.val + 1, by omega⟩).state.code <<< 4
    ||| (s.slots.get ⟨4 * i.val + 2, by omega⟩).state.code <<< 8
    ||| (s.slots.get ⟨4 * i.val + 3, by omega⟩).state.code <<< 12

/-- SSTAT (R166): bits 1:0 the commit state, bits 8:2 the staged count, bits 15:9 the progress. -/
def Schedule.statusWord (x : Schedule) : Word :=
  (match x.commit with | .open_ => 0 | .armed => 1 | .applying => 2)
    ||| (BitVec.ofNat 7 x.staging.length).zeroExtend 16 <<< 2
    ||| (BitVec.ofNat 7 x.progress).zeroExtend 16 <<< 9

/-- The code of a table (R193). -/
def TableSel.code : TableSel → Word
  | .line => 0
  | .reflex => 1
  | .output => 2
  | .quota => 3
  | .stage => 4
  | .sched => 5

/-- The word a read of a register returns (Section 10.2). W registers and command fields read 0. -/
def State.readRegister (s : State) : Register → Word
  | .id => Config.partId
  | .mode => bitAt (s.mode == .run) 0
  | .softrst => 0
  | .errflag => s.errFlags.zeroExtend 16
  | .erren => s.errEnable.zeroExtend 16
  | .refcode => (match s.refCode with | none => 0 | some c => c.value <<< 8) ||| s.refAddr.zeroExtend 16
  | .next => BitVec.ofNat 16 s.nextGroup
  | .wsel => BitVec.ofNat 16 s.wsel.val
  | .win i => s.windowWord i
  | .ack g => (s.groups.get g).presented.getD 0
  | .gflush => 0
  | .delen => viewWord (fun g : GroupNo => (s.groups.get g).deliver) 0
  | .girqen => viewWord (fun g : GroupNo => (s.groups.get g).irqEnable) 0
  | .gattn => viewWord s.attention 0
  | .gpres => viewWord (fun g : GroupNo => (s.groups.get g).presented.isSome) 0
  | .gstat g => s.gstatWord g
  | .tbctl => switchBits s.tb.syncEnable s.tb.stepAllow s.tb.freezeOnHoldover
  | .tbstat => s.tb.statusWord
  | .time 0 => timeWord s.tb.counter 0
  | .time i => timeWord s.tb.latch i
  | .epoch => s.tb.epoch.zeroExtend 16
  | .tickdiv => s.tb.tickDiv
  | .syncper 0 => low16 s.tb.period
  | .syncper 1 => mid16 s.tb.period
  | .synctol => s.tb.tolerance
  | .slewlim => s.tb.slewLimit.zeroExtend 16
  | .synclim => s.tb.missLimit.zeroExtend 16 ||| s.tb.badLimit.zeroExtend 16 <<< 4
  | .lasterr => lastErrWord s.tb.lastError
  | .tbset i => timeWord s.tb.tbset i
  | .inlvl i => viewWord (fun n : LineNo => (s.lines.get n).level) i.val
  | .insup i => viewWord (fun n : LineNo => (s.lines.get n).state == .suppressed) i.val
  | .outdrv i => viewWord s.driven i.val
  | .outclm i => viewWord (fun n : OutNo => (s.outputs.get n).claimed) i.val
  | .hostset _ => 0
  | .hostclr _ => 0
  | .frzctl => s.frzctlWord
  | .rfxcmd => 0
  | .rfxst i => s.rfxstWord i
  | .scmd => 0
  | .sarg => s.sched.sarg
  | .sstat => s.sched.statusWord
  | .scount => BitVec.ofNat 16 s.sched.active.length
  | .cat i => timeWord s.sched.cat i
  | .tsel => s.tsel.code
  | .tidx => s.tidx.zeroExtend 16
  | .tcmd => 0
  | .tdata i => s.tdata.get i

/-- The word a host read of a word address returns: 0 where the map lists no register (R188), and 0
while the part is held in reset (R177). A read is a host access, so it finds every claim offered at a
happening that is not a tick taken (R55; assumption log 4). -/
def State.readAddr (s : State) (a : Addr) : Word :=
  if s.inReset then 0
  else match Register.ofAddr a with
    | none => 0
    | some r => s.settled.readRegister r

/-! ### Meanings -/

/-- READ (R196). -/
def execRead (s : State) : Host.Outcome State Fault Refusal := hostWrite 0x72 readOp s

/-- WRITE (R197). -/
def execWrite (s : State) : Host.Outcome State Fault Refusal := hostWrite 0x72 writeOp s

/-- APPEND (R198). -/
def execAppend (s : State) : Host.Outcome State Fault Refusal := hostWrite 0x72 appendOp s

/-- REGISTER_WRITE (R188). -/
def execRegisterWrite (a : Addr) (w : Word) (s : State) : Host.Outcome State Fault Refusal :=
  hostWrite a (addressOp a w) s

end Sys2Proof.Machine
end

