-- ==== Sys2Proof/Machine/Dispatch.lean ====
section
/-! DEFINITION. The meaning of every command: one arm per row of spec/opcode_table.json. -/

namespace Sys2Proof.Machine

/-- The effect of a command on everything but the queue. -/
def exec (i : Instr) (s : State) : Host.Outcome State Fault Refusal :=
  match i with
  | .tick lines sync expiryFirst => Sys2Proof.Machine.execTick lines sync expiryFirst s
  | .slewAdjustment => Sys2Proof.Machine.execSlewAdjustment s
  | .missTimerExpiry => Sys2Proof.Machine.execMissTimerExpiry s
  | .start a b c => Sys2Proof.Machine.execStart a b c s
  | .stop a b c => Sys2Proof.Machine.execStop a b c s
  | .preset a b c => Sys2Proof.Machine.execPreset a b c s
  | .switches a b c => Sys2Proof.Machine.execSwitches a b c s
  | .timeRead => Sys2Proof.Machine.execTimeRead s
  | .qualification line => Sys2Proof.Machine.execQualification line s
  | .release line => Sys2Proof.Machine.execRelease line s
  | .delayRunsOut slot => Sys2Proof.Machine.execDelayRunsOut slot s
  | .widthRunsOut slot => Sys2Proof.Machine.execWidthRunsOut slot s
  | .arm slot => Sys2Proof.Machine.execArm slot s
  | .disarm slot => Sys2Proof.Machine.execDisarm slot s
  | .clear slot => Sys2Proof.Machine.execClear slot s
  | .firing => Sys2Proof.Machine.execFiring s
  | .cancel => Sys2Proof.Machine.execCancel s
  | .clearAll => Sys2Proof.Machine.execClearAll s
  | .discard => Sys2Proof.Machine.execDiscard s
  | .commitNow => Sys2Proof.Machine.execCommitNow s
  | .commitAt => Sys2Proof.Machine.execCommitAt s
  | .abort => Sys2Proof.Machine.execAbort s
  | .commitTimeReached => Sys2Proof.Machine.execCommitTimeReached s
  | .insert => Sys2Proof.Machine.execInsert s
  | .cancelOperation => Sys2Proof.Machine.execCancelOperation s
  | .clearAllOperation => Sys2Proof.Machine.execClearAllOperation s
  | .applicationFinish => Sys2Proof.Machine.execApplicationFinish s
  | .claim => Sys2Proof.Machine.execClaim s
  | .acknowledge group sequence => Sys2Proof.Machine.execAcknowledge group sequence s
  | .flush word => Sys2Proof.Machine.execFlush word s
  | .delenWrite word => Sys2Proof.Machine.execDelenWrite word s
  | .ageTimerRunsOut group => Sys2Proof.Machine.execAgeTimerRunsOut group s
  | .hostset half word => Sys2Proof.Machine.execHostset half word s
  | .hostclr half word => Sys2Proof.Machine.execHostclr half word s
  | .frznFall => Sys2Proof.Machine.execFrznFall s
  | .frznRise => Sys2Proof.Machine.execFrznRise s
  | .freeze => Sys2Proof.Machine.execFreeze s
  | .unfreeze => Sys2Proof.Machine.execUnfreeze s
  | .read => Sys2Proof.Machine.execRead s
  | .write => Sys2Proof.Machine.execWrite s
  | .append => Sys2Proof.Machine.execAppend s
  | .run => Sys2Proof.Machine.execRun s
  | .halt => Sys2Proof.Machine.execHalt s
  | .softReset => Sys2Proof.Machine.execSoftReset s
  | .deviceReset resetn => Sys2Proof.Machine.execDeviceReset resetn s
  | .errflagClear word => Sys2Proof.Machine.execErrflagClear word s
  | .registerWrite addr word => Sys2Proof.Machine.execRegisterWrite addr word s

end Sys2Proof.Machine
end

