-- ==== Sys2Proof/Safety.lean ====
section
/-!
DEFINITION. What a safe state is: the rules of the spec that hold at every moment, one definition per
block. A step from a state in which such a rule holds answers a state in which it holds.
-/
namespace Sys2Proof.Machine

/-! ### Commands one after another -/

/-- The state after the commands given, executed one after another. -/
def State.runCommands : List Instr → State → State
  | [], s => s
  | c :: cs, s =>
    match exec c s with
    | .next t => State.runCommands cs t
    | .fault _ => s
    | .refused _ => s

/-- The commands that take what the Input Unit and the Reflex Unit have still to do of the most recent tick,
in the model's fixed order (assumption log 2). -/
def captureCommands : List Instr :=
  (List.finRange 64).map .qualification ++ (List.finRange 64).map .release ++
    (List.finRange 16).map .delayRunsOut ++ (List.finRange 16).map .widthRunsOut

/-- The commands that take all that the most recent tick has still to do but its claims, where the active
list holds n entries (assumption log 2). -/
def finishCommands (n : Nat) : List Instr :=
  .missTimerExpiry :: (captureCommands ++ List.replicate n .firing ++
    .commitTimeReached :: (List.finRange 9).map .ageTimerRunsOut)

/-! ### Timebase -/

/-- The Timebase is sound: its settings lie in the ranges of R7; the miss timer runs in LOCKED and only
there (R17); while STOPPED no slew adjustment is pending (R5); pending adjustments are one or more, one
or more ticks apart (R13). -/
structure TimebaseSafe (t : Timebase) : Prop where
  tickDiv_range : 1 ≤ t.tickDiv.toNat ∧ t.tickDiv.toNat ≤ 4096
  period_pos : t.period ≠ 0
  missLimit_pos : t.missLimit ≠ 0
  badLimit_pos : t.badLimit ≠ 0
  missTimer_iff_locked : t.missTimer.isSome = true ↔ t.state = .locked
  stopped_no_slew : t.state = .stopped → t.slew = none ∧ t.advance = .normal
  slew_pos : ∀ x, t.slew = some x → 1 ≤ x.left ∧ 1 ≤ x.spacing

/-- The advance of the coming tick (R2, R13): the one a SLEW_ADJUSTMENT has chosen for it, or else the one
of an adjustment that falls at it. -/
def Timebase.comingAdvance (t : Timebase) : Advance :=
  if t.advance = .normal then
    match t.slew with
    | none => .normal
    | some x => if 1 < x.next then .normal else if x.ahead then .held else .doubled
  else t.advance

/-- What the coming tick leaves of pending adjustments where no pulse discards them (R13): one fewer, the
next a spacing away, where one falls at it, and the next one tick nearer where none does. -/
def Timebase.comingSlew (t : Timebase) : Option Slew :=
  if t.advance = .normal then
    match t.slew with
    | none => none
    | some x =>
      if 1 < x.next then some { x with next := x.next - 1 }
      else if x.left ≤ 1 then none
      else some { x with left := x.left - 1, next := x.spacing }
  else t.slew

/-- The state after n ticks that come one after another with the samples given and SYNC low, so that none
of them is a pulse (R10). -/
def State.quietTicks (samples : BitVec 64) (n : Nat) (s : State) : State :=
  s.runCommands (List.replicate n (.tick samples false false))

/-- The miss timer runs out at the coming tick, and its expiry is taken before a pulse of that tick (R17). -/
def Timebase.expiresFirst (t : Timebase) (first : Bool) : Bool :=
  first && decide (t.state = .locked) && t.missTimer == some 1

/-- An expiry taken before the pulse of the coming tick reaches the miss limit, so that the Timebase enters
HOLDOVER before the pulse (R17, R18). -/
def Timebase.losesFirst (t : Timebase) (first : Bool) : Bool :=
  t.expiresFirst first && decide (t.missCount + 1 = t.missLimit)

/-! ### Input Unit -/

/-- A line is sound: it is OFF exactly when its mode is OFF (Section 2.2); an OFF or IDLE line has level
0, a STABLE qualifier, a cleared interval counter, no window and no quiet timer (R23, R24); the quiet
timer runs in SUPPRESSED and only there (R39, R41); before its level is established a line has level 0
and a STABLE qualifier (R27); a pending level differs from the qualified level, and the stable count is
at least 1 and at most filter + 1 (R30, R31). -/
structure LineSafe (l : Line) : Prop where
  off_iff : l.state = .off ↔ l.config.on = false
  unsampled_clear : l.state = .off ∨ l.state = .idle →
    l.level = false ∧ l.qualifier = .stable ∧ l.interval = 0 ∧ l.window = none
  quiet_iff : l.quiet.isSome = true ↔ l.state = .suppressed
  unestablished_clear : l.established = false → l.level = false ∧ l.qualifier = .stable
  pending_differs : ∀ v o n, l.qualifier = .pending v o n →
    v ≠ l.level ∧ 1 ≤ n ∧ n ≤ l.config.filter.toNat + 1

/-- Every line is sound. -/
def LinesSafe (s : State) : Prop := ∀ n, LineSafe (s.lines.get n)

/-! ### Mode -/

/-- The device mode and what obeys it (R169, R171, R172): in RUN the Timebase is not STOPPED and no line
is IDLE; in CONFIG no line is LIVE or SUPPRESSED and every slot is DISARMED; a part held in reset is in
CONFIG with the Timebase STOPPED (R177). -/
structure ModeSafe (s : State) : Prop where
  run_ticks : s.mode = .run → s.tb.state ≠ .stopped
  run_no_idle : s.mode = .run → ∀ n, (s.lines.get n).state ≠ .idle
  config_not_sampled : s.mode = .config → ∀ n, (s.lines.get n).sampled = false
  config_disarmed : s.mode = .config → ∀ i, (s.slots.get i).state = .disarmed
  reset_stops : s.inReset = true → s.mode = .config ∧ s.tb.state = .stopped

/-! ### Record Pool -/

/-- The accounting of the pool (R51, R54): "No queue ever holds more records than its limit", and the
records held with the unused reserves never exceed the 512 slots. -/
structure PoolSafe (s : State) : Prop where
  within_limit : ∀ g, (s.queues.get g).count ≤ (s.queues.get g).quota.limit.toNat
  reserves_kept : (sumQueues s.queues fun _ q => q.count + q.unused) ≤ Config.poolSlots

/-- Two records as they stand in a queue, the first directly ahead of the second: the key of the second
is not smaller (R58, R59). -/
def Record.inOrder (a b : Record) : Prop := b.key.lt a.key = false

/-- The undelivered records of the current run of a queue. -/
def State.currentRun (s : State) (g : GroupNo) : List Record :=
  (s.queues.get g).records.drop ((s.queues.get g).fixed (s.groups.get g).presented.isSome)

/-- The undelivered records of the current run of every queue stand in order of key, each behind one
whose key is not larger (R58, R59). -/
def QueuesOrdered (s : State) : Prop := ∀ g, List.IsChain Record.inOrder (s.currentRun g)

/-- The waiting claims stand in the order in which they are taken (R55). -/
def ClaimsOrdered (s : State) : Prop :=
  s.claims.Pairwise fun c d => c.source.rank ≤ d.source.rank

/-! ### Delivery Unit -/

/-- A group is sound: what is presented is the head of the queue under its sequence number, which is not
0 (R67-R69); a queue that holds records while delivery is enabled has its head presented (R67); the next
sequence number is not 0 (R69); the run start lies within the queue (R58). -/
structure GroupSafe (q : Queue) (x : Group) : Prop where
  presented_head : ∀ w, x.presented = some w → ∃ r rs, q.records = r :: rs ∧ r.seq = w
  presented_pos : ∀ w, x.presented = some w → w ≠ 0
  delivered : q.records ≠ [] → x.deliver = true → x.presented.isSome = true
  next_pos : x.nextSeq ≠ 0
  runStart_le : q.runStart ≤ q.count

/-- Every group is sound. -/
def DeliverySafe (s : State) : Prop := ∀ g, GroupSafe (s.queues.get g) (s.groups.get g)

/-! ### Output Stage -/

/-- R93: "Each REFLEX-owned output line's claimed value is its safe value inverted exactly when a slot
covering it is ACTIVE or HOLDING". -/
def OutputsSafe (s : State) : Prop :=
  ∀ n, (s.outputs.get n).owner = .reflex →
    ((s.outputs.get n).claimed = !(s.outputs.get n).safe ↔
      ∃ i, ((s.slots.get i).state = .active ∨ (s.slots.get i).state = .holding) ∧
        (s.slots.get i).config.mask.getLsbD n.val = true)

/-! ### Schedule Unit -/

/-- The catch-up of R134 in the rule's own words, at most n skips long: a due time that is reached is skipped
and counted, a remaining count that is not 0 decreases by one, and when it has thereby reached 0 from 1 the
entry ends; otherwise the due time advances by the period and is compared again. -/
def catchUpByRule (now : Time) : Nat → Time → Rep → Nat × Option (Time × Rep)
  | 0, due, r => (0, some (due, r))
  | n + 1, due, r =>
    if reached now due then
      if r.count = 1 then (1, none)
      else
        let x := catchUpByRule now n (due + r.period.zeroExtend 48)
          { r with count := if r.count = 0 then 0 else r.count - 1 }
        (x.1 + 1, x.2)
    else (0, some (due, r))

/-- An entry's fields lie in their ranges (R128, R151): a tag, a mask with a line, a period that is not
0. -/
def Entry.inRange (e : Entry) : Prop := e.tag ≠ 0 ∧ e.mask ≠ 0 ∧ ∀ r, e.rep = some r → r.period ≠ 0

/-- A staged operation is in range (R149, R151, R152). -/
def StagedOp.inRange : StagedOp → Prop
  | .insert e => e.inRange
  | .cancel tag => tag ≠ 0
  | .clearAll => True

/-- The lists of the Schedule Unit: at most 256 active entries (R129) and 64 staged operations (R149),
with their fields in range (R128); the progress lies within the batch while APPLYING and is 0 otherwise
(R158, R166). -/
structure ScheduleSafe (x : Schedule) : Prop where
  active_le : x.active.length ≤ 256
  staging_le : x.staging.length ≤ 64
  active_range : ∀ a ∈ x.active, a.entry.inRange
  staged_range : ∀ o ∈ x.staging, o.inRange
  progress_le : x.commit = .applying → x.progress ≤ x.staging.length
  progress_zero : x.commit ≠ .applying → x.progress = 0

/-- Two entries both still ahead stand in order (R130): the first is due sooner, or at the same time and
entered first. -/
def Active.before (now : Time) (a b : Active) : Prop :=
  distance now a.entry.due < distance now b.entry.due ∨
    (a.entry.due = b.entry.due ∧ a.order < b.order)

/-- The order of the active list (R130): the entries that are reached stand first, and those still ahead
stand in the order in which they will be reached; every entry order was given out. -/
structure ScheduleOrdered (s : State) : Prop where
  reached_first : s.sched.active.Pairwise fun a b =>
    reached s.tb.counter b.entry.due = true → reached s.tb.counter a.entry.due = true
  ahead_ordered : (s.sched.active.filter fun a => !reached s.tb.counter a.entry.due).Pairwise
    (Active.before s.tb.counter)
  order_given : ∀ a ∈ s.sched.active, a.order < s.sched.nextOrder

end Sys2Proof.Machine
end

