-- ==== Sys2Proof/WellFormed.lean ====
section
/-!
DEFINITION. Well-formed commands. The operand types bound every number, so the one check is that a
REGISTER_WRITE is not a write that spells a row of its own.
-/
namespace Sys2Proof

/-- REGISTER_WRITE is "a write to a register that has no row of its own": it is ill-formed where the
same write is spelled by another row. Every other command is well-formed with any operands. -/
def Instr.wellFormed : Instr → Bool
  | .registerWrite a w => commandOfWrite a w == .registerWrite a w
  | _ => true

end Sys2Proof
end

