-- ==== Sys2Proof/Certificates/Slice0/Obligations.lean ====
section
/-!
DEFINITION. The statements for the provers. A statement about a host write is made for a part that is not
held in reset (R177), and gives its outcome over `s.settled`: the state in which every claim offered at a
happening that is not a tick has been taken (R55, assumption log 4).
-/

open Sys2Proof Sys2Proof.Machine

/-! ### The queue of commands, host writes and resets -/

/-- A step takes the command at the front of the queue and executes it with the rest of the queue waiting;
with no command waiting the block idles, which is the model's choice (assumption log 5). -/
def Obligations.StepRunsTheFrontCommand : Prop :=
  (∀ (c : Instr) (rest : List Instr) (s : State),
    step { s with pending := c :: rest } = exec c { s with pending := rest }) ∧
  ∀ s : State, s.pending = [] → step s = .next s

/-- Every command is completed in every state, none ends in a fault or a refusal of the model, and none
touches the commands that wait behind it. R178: "An error stops nothing in the part". -/
def Obligations.EveryCommandCompletesAndKeepsTheQueue : Prop :=
  ∀ (c : Instr) (s : State), ∃ t, exec c s = .next t ∧ t.pending = s.pending

/-- The word every one of the 256 addresses reads right after device reset with FRZn high: the value column
of the register map (Section 10.2), and 0 at an address the map does not list (R188). -/
def Obligations.ResetReadsAsTheMapGives : Prop :=
  ∀ a : Addr, State.reset.readAddr a =
    if a = 0x00 then 0x6410
    else if a = 0x06 then 0x000F
    else if a = 0x1A then 0x01FF
    else if a = 0x36 then 0x000A
    else if a = 0x37 then 0x4240
    else if a = 0x38 then 0x000F
    else if a = 0x39 then 0x000A
    else if a = 0x3A then 0x0064
    else if a = 0x3B then 0x0033
    else if a = 0x50 then 0x0100
    else 0

/-- While the part is held in reset (R177) no host write has an effect, a read returns 0, IRQn is not
asserted, every output line is high-impedance, and the Timebase, STOPPED as ModeSafe says, makes no tick.
What a device reset leaves (R21, R45, R66, R86, R102, R127, R148, R168, R183, R200): RESETn low holds
the part in reset; going high it ends the reset, and with FRZn low PIN is added (R102). That RESETn takes
its level by a command, and that RESETn high on a part not in reset is no event, are the model's choices
(assumption log 16). -/
def Obligations.DeviceResetLeavesTheResetValues : Prop :=
  ∀ s : State,
    (∃ t, exec (.deviceReset false) s = .next t ∧ t.inReset = true ∧
      ∀ n, t.pin n = none) ∧
    (s.inReset = true → ∃ t, exec (.deviceReset true) s = .next t ∧
      t.inReset = false ∧ t.frzn = s.frzn ∧ t.pending = s.pending ∧
      t.tb = { state := .stopped, counter := 0, epoch := 0, tickDiv := 10, period := 1000000,
               tolerance := 10, slewLimit := 100, missLimit := 3, badLimit := 3, syncEnable := false,
               stepAllow := false, freezeOnHoldover := false, missCount := 0, badCount := 0,
               slew := none, missTimer := none, lastError := 0, latch := 0, tbset := 0,
               syncLevel := none, tickTime := 0, tickEpoch := 0, tickState := .stopped } ∧
      (∀ n, t.lines.get n =
        { config := { on := false, edge := .both, filter := 0, urgent := false, chatterLimit := 0,
                      chatterWindow := 1000, quietTime := 1000 },
          state := .off, level := false, qualifier := .stable, interval := 0, firstMark := false,
          window := none, quiet := none, seen := 0, levelBefore := false, lastOnset := 0 }) ∧
      (∀ g, t.queues.get g =
        { records := [], runStart := 0, highWater := none, pendingLoss := 0,
          quota := if g = 8 then ⟨64, 256, .dropNew, 1, 0⟩ else ⟨32, 128, .dropNew, 1, 0⟩ }) ∧
      (∀ g, t.groups.get g =
        { nextSeq := 1, presented := none, deliver := true, irqEnable := false, ageTimer := none,
          ageMark := false }) ∧
      t.wsel = 0 ∧
      (∀ n, t.outputs.get n = { owner := .host, safe := false, drive := false, claimed := false }) ∧
      (∀ i, t.slots.get i =
        { config := { trigger := 0, edge := .rise, gate := none, delay := 0, width := 0, mask := 0,
                      policy := .ignore, countLimit := 0, report := false },
          state := .disarmed, edge := none, timer := none, firings := 0 }) ∧
      t.sched.active = [] ∧ t.sched.nextOrder = 0 ∧ t.sched.staging = [] ∧ t.sched.commit = .open_ ∧
      t.sched.progress = 0 ∧ t.sched.cat = 0 ∧ t.sched.sarg = 0 ∧
      t.mode = .config ∧ t.errEnable = 0 ∧ t.refCode = none ∧ t.refAddr = 0 ∧
      t.tsel = .line ∧ t.tidx = 0 ∧ (∀ i, t.tdata.get i = 0) ∧
      (s.frzn = true → t.causes = {} ∧ t.claims = [] ∧ t.errFlags = 0) ∧
      (s.frzn = false → t.causes = { pin := true } ∧ t.errFlags = 0x40 ∧
        t.claims = [⟨.output, false, freezeRecord false { pin := true } ⟨0, 0, true⟩⟩])) ∧
    (s.inReset = false → exec (.deviceReset true) s = .next s) ∧
    (s.inReset = true →
      (∀ (c : Instr) (a : Addr) (w : Word), writeOfCommand c = some (a, w) → exec c s = .next s) ∧
      exec .timeRead s = .next { s with readData := 0 } ∧
      (∀ a, s.readAddr a = 0) ∧ s.irqAsserted = false ∧ (∀ n, s.pin n = none) ∧
      (ModeSafe s → ∀ samples sync first, exec (.tick samples sync first) s = .next s))

/-- SOFT_RESET (R174, R175, R103): every block but the Timebase takes its reset values, the safe values and
drive enables of the output lines are kept and the claimed values become the safe values, and PIN is added
at its end where FRZn is low. The Timebase stands as it was; where an expiry of the miss timer is still to be
taken of the tick before, it is taken first, as the tick's own work (R176, assumption log 8), and nothing of
that tick's work is left behind the reset. The ENTER record by PIN takes the stamp of R50 (assumption log
10). That the counts of a batch, which R168 does not list, are 0 after it is the model's choice (assumption
log 31). -/
def Obligations.SoftResetKeepsTheTimebase : Prop :=
  ∀ s : State, s.inReset = false → ∃ t m, exec .softReset s = .next t ∧
    exec .missTimerExpiry s = .next m ∧ t.tb = m.tb ∧ (s.tb.expiryDue = false → t.tb = s.tb) ∧
    t.frzn = s.frzn ∧ t.pending = s.pending ∧ t.inReset = false ∧
    (∀ n, t.outputs.get n =
      { owner := .host, safe := (s.outputs.get n).safe, drive := (s.outputs.get n).drive,
        claimed := (s.outputs.get n).safe }) ∧
    t.lines = State.reset.lines ∧ t.slots = State.reset.slots ∧ t.queues = State.reset.queues ∧
    t.groups = State.reset.groups ∧ t.sched = State.reset.sched ∧ t.mode = .config ∧ t.wsel = 0 ∧
    t.errEnable = 0 ∧ t.refCode = none ∧ t.refAddr = 0 ∧
    t.tsel = .line ∧ t.tidx = 0 ∧ (∀ i, t.tdata.get i = 0) ∧
    (s.frzn = true → t.causes = {} ∧ t.claims = [] ∧ t.errFlags = 0) ∧
    (s.frzn = false → t.causes = { pin := true } ∧ t.errFlags = 0x40 ∧
      t.claims = [⟨.output, false, freezeRecord false { pin := true }
        (if t.tb.state = .stopped then ⟨t.tb.counter, t.tb.epoch, true⟩
         else ⟨t.tb.tickTime, t.tb.tickEpoch, decide (t.tb.tickState ≠ .locked)⟩)⟩])

/-- A claim offered at a happening that is not a tick is taken before the next host access (R55): a host
write, the read of TIME0, and the read of every other address act as if those claims had been taken before
it, and none is left waiting. -/
def Obligations.HostAccessFindsEventClaimsTaken : Prop :=
  ∀ s : State, s.settled.eventClaimWaits = false ∧
    (∃ n, s.settled = s.runCommands (List.replicate n .claim)) ∧
    (s.eventClaimWaits = false → s.settled = s) ∧
    (∀ a, s.readAddr a = s.settled.readAddr a) ∧
    (s.inReset = false → exec .timeRead s = exec .timeRead s.settled ∧
      ∀ (c : Instr) (a : Addr) (w : Word), writeOfCommand c = some (a, w) →
        exec c s = exec c s.settled)

/-- A host write is taken whole or refused (R181): refused, it leaves everything it addresses as it was,
sets REFUSED, and REFCODE takes its code and the address written; accepted, it leaves REFCODE as it was and
does not set REFUSED. The soft reset, which clears REFCODE (R183), is stated by itself. REFCODE (R182, R189)
reads the code in bits 10:8 and the address in bits 7:0, and ERRFLAG (R178) reads the flags in bits 6:0, bit
0 REFUSED. -/
def Obligations.HostWriteIsTakenOrRefused : Prop :=
  (∀ (c : Instr) (a : Addr) (w : Word) (s : State),
    writeOfCommand c = some (a, w) → s.inReset = false → commandOfWrite a w ≠ .softReset →
    ∃ t, exec c s = .next t ∧
      ((∃ code, t = { s.settled with
          errFlags := s.settled.errFlags ||| 1, refCode := some code, refAddr := a }) ∨
       (t.refCode = s.refCode ∧ t.refAddr = s.refAddr ∧
         (t.errFlags.getLsbD 0 = true → s.errFlags.getLsbD 0 = true)))) ∧
  ∀ s : State, s.inReset = false →
    (s.readAddr 0x05).toNat = s.refAddr.toNat + 256 * (match s.refCode with
      | none => 0 | some .readonly => 1 | some .mode => 2 | some .busy => 3 | some .range => 4
      | some .full => 5 | some .unmapped => 6 | some .quota => 7) ∧
    (s.readAddr 0x03).toNat = s.settled.errFlags.toNat ∧ (s.readAddr 0x04).toNat = s.errEnable.toNat

/-- REGISTER_WRITE (R188) takes any address and word, and acts as the row that the write spells, which is the
model's choice (assumption log 20). A write to a register of type R is refused with READONLY, and a write to
an address that the map does not list with UNMAPPED, which records that address. The codes of the command
registers that spell no row: 0 is no command and changes nothing in MODE (R170), SOFTRST (R174) and FRZCTL
(R98), and every other code that the map does not list, 0 in RFXCMD (R118), SCMD (R152) and TCMD (R195)
among them, is refused with RANGE. -/
def Obligations.RegisterWritesAreTakenByTheirAddress : Prop :=
  ∀ (a : Addr) (w : Word) (s : State),
    exec (.registerWrite a w) s = exec (commandOfWrite a w) s ∧
    (s.inReset = false →
      a ∈ [0x00#8, 0x05, 0x06, 0x1C, 0x1D, 0x31, 0x32, 0x33, 0x34, 0x35, 0x3C, 0x62, 0x63] ∨
        (0x08 ≤ a ∧ a ≤ 0x0F) ∨ (0x20 ≤ a ∧ a ≤ 0x28) ∨ (0x40 ≤ a ∧ a ≤ 0x4B) ∨
        (0x59 ≤ a ∧ a ≤ 0x5C) →
      exec (.registerWrite a w) s = .next (s.settled.refuse .readonly a)) ∧
    (s.inReset = false →
      (0x1E ≤ a ∧ a ≤ 0x1F) ∨ (0x29 ≤ a ∧ a ≤ 0x2F) ∨ (0x51 ≤ a ∧ a ≤ 0x57) ∨
        (0x5D ≤ a ∧ a ≤ 0x5F) ∨ (0x67 ≤ a ∧ a ≤ 0x6F) ∨ (0x73 ≤ a ∧ a ≤ 0x7F) ∨ 0x90 ≤ a →
      exec (.registerWrite a w) s = .next (s.settled.refuse .unmapped a) ∧ s.readAddr a = 0) ∧
    (s.inReset = false →
      let nothing (b : Addr) : Prop := exec (.registerWrite b w) s = .next s.settled
      let range (b : Addr) : Prop := exec (.registerWrite b w) s = .next (s.settled.refuse .range b)
      (w.toNat / 2 % 4 = 0 → nothing 0x01) ∧ (w.toNat / 2 % 4 = 3 → range 0x01) ∧
      (w.toNat = 0 → nothing 0x02) ∧ (1 < w.toNat → range 0x02) ∧
      (w.toNat % 4 = 0 → nothing 0x50) ∧ (w.toNat % 4 = 3 → range 0x50) ∧
      (w.toNat / 256 % 4 = 0 → range 0x58) ∧
      (w.toNat % 8 = 0 ∨ w.toNat % 8 = 7 → range 0x60) ∧
      (w.toNat % 4 = 0 → range 0x72))

/-- The write that spells a host command and the command that a write spells agree, for every well-formed
host command and every value of its operands (Section 10.2). -/
def Obligations.HostWriteRoundTrip : Prop :=
  ∀ (c : Instr) (a : Addr) (w : Word), c.wellFormed = true → writeOfCommand c = some (a, w) →
    commandOfWrite a w = c

/-- TSEL and TIDX (R193): TSEL takes the codes 0 to 5 and TIDX the values 0 to 255, at once, in every mode
and state, and each reads back what it holds; any other value is refused with RANGE; nothing but the
selection written changes, the data buffer and the entries of the tables included. -/
def Obligations.TableSelectAndIndexAreWritten : Prop :=
  ∀ (w : Word) (s : State), s.inReset = false →
    (∀ sel : TableSel, w = sel.code → exec (.registerWrite 0x70 w) s = .next { s.settled with tsel := sel }) ∧
    (TableSel.line.code = 0 ∧ TableSel.reflex.code = 1 ∧ TableSel.output.code = 2 ∧
      TableSel.quota.code = 3 ∧ TableSel.stage.code = 4 ∧ TableSel.sched.code = 5) ∧
    (5 < w.toNat → exec (.registerWrite 0x70 w) s = .next (s.settled.refuse .range 0x70)) ∧
    (w.toNat ≤ 255 → ∃ i : BitVec 8, i.toNat = w.toNat ∧
      exec (.registerWrite 0x71 w) s = .next { s.settled with tidx := i }) ∧
    (255 < w.toNat → exec (.registerWrite 0x71 w) s = .next (s.settled.refuse .range 0x71)) ∧
    s.readAddr 0x70 = s.tsel.code ∧ (s.readAddr 0x71).toNat = s.tidx.toNat ∧
    s.settled.tsel = s.tsel ∧ s.settled.tidx = s.tidx ∧ s.settled.mode = s.mode ∧
    s.settled.tdata = s.tdata ∧ s.settled.lines = s.lines ∧ s.settled.slots = s.slots ∧
    s.settled.outputs = s.outputs ∧ s.settled.sched = s.sched ∧
    ∀ g, (s.settled.queues.get g).quota = (s.queues.get g).quota

/-- The settings that a host may write at any time, each kept as written with the bits the map does not name
ignored (R6, R72, R83, R152, R180, R194): TBSET, WSEL with its range check, GIRQEN, SARG, ERREN, TDATA; and
each reads back what it holds, with 0 in every bit the map does not name. And ERRFLAG_CLEAR (R179): each
flag whose bit is 1 is cleared, each whose bit is 0 is left, and ERRFLAG reads the flags. -/
def Obligations.PlainSettingsAreWritten : Prop :=
  ∀ (w : Word) (s : State), s.inReset = false →
    (∀ i : Fin 3, ∃ v : Time, (∀ j : Fin 3, timeWord v j = if j = i then w else timeWord s.tb.tbset j) ∧
      exec (.registerWrite (BitVec.ofNat 8 (0x3D + i)) w) s =
        .next { s.settled with tb := { s.tb with tbset := v } }) ∧
    (∀ g : GroupNo, w.toNat = g.val →
      exec (.registerWrite 0x07 w) s = .next { s.settled with wsel := g }) ∧
    (8 < w.toNat → exec (.registerWrite 0x07 w) s = .next (s.settled.refuse .range 0x07)) ∧
    (∃ gs, exec (.registerWrite 0x1B w) s = .next { s.settled with groups := gs } ∧
      ∀ g, gs.get g = { s.settled.groups.get g with irqEnable := w.getLsbD g.val }) ∧
    exec (.registerWrite 0x61 w) s =
      .next { s.settled with sched := { s.sched with sarg := w } } ∧
    (∃ e : BitVec 7, (∀ i : Fin 7, e.getLsbD i.val = w.getLsbD i.val) ∧
      exec (.registerWrite 0x04 w) s = .next { s.settled with errEnable := e }) ∧
    (∀ i : Fin 16, ∃ b, exec (.registerWrite (BitVec.ofNat 8 (0x80 + i)) w) s =
        .next { s.settled with tdata := b } ∧
      ∀ j, b.get j = if j = i then w else s.tdata.get j) ∧
    (∃ fl : BitVec 7, exec (.errflagClear w) s = .next { s.settled with errFlags := fl } ∧
      ∀ i : Fin 7, fl.getLsbD i.val = (s.settled.errFlags.getLsbD i.val && !w.getLsbD i.val)) ∧
    (s.readAddr 0x03).toNat = s.settled.errFlags.toNat ∧
    (s.readAddr 0x3F ++ s.readAddr 0x3E ++ s.readAddr 0x3D : BitVec 48) = s.tb.tbset ∧
    (s.readAddr 0x07).toNat = s.wsel.val ∧
    (∀ i : Fin 16, (s.readAddr 0x1B).getLsbD i.val =
      if h : i.val < 9 then (s.groups.get ⟨i.val, h⟩).irqEnable else false) ∧
    s.readAddr 0x61 = s.sched.sarg ∧ (s.readAddr 0x04).toNat = s.errEnable.toNat ∧
    (∀ i : Fin 16, s.readAddr (BitVec.ofNat 8 (0x80 + i)) = s.tdata.get i)

/-- RUN and HALT (R170 to R173, R25, R26). RUN is refused with MODE while the Timebase is STOPPED; in CONFIG
mode it makes every IDLE line LIVE with its level not established. HALT finds done what the tick before it
has still to do at the lines and the slots (R173; the fixed order is assumption log 2). It then idles every
sampled line and disarms every slot (R125): each that asserts offers REFLEX_OFF with cause HALTED where its
report says so, and the lines that REFLEX owns return to their safe values. In the mode they lead to, both
change nothing. MODE (R189) reads the mode in bit 0. -/
def Obligations.RunAndHalt : Prop :=
  ∀ s : State, s.inReset = false →
    (s.tb.state = .stopped → exec .run s = .next (s.settled.refuse .mode 0x01)) ∧
    (s.tb.state ≠ .stopped → s.mode = .run → exec .run s = .next s.settled) ∧
    (s.tb.state ≠ .stopped → s.mode = .config → ∃ ls,
      exec .run s = .next { s.settled with mode := .run, lines := ls } ∧
      ∀ n, ls.get n = if (s.lines.get n).state = .idle then
          { s.lines.get n with
            state := .live, established := false, level := false, qualifier := .stable, interval := 0,
            firstMark := true, window := none, quiet := none, seen := 0 }
        else s.lines.get n) ∧
    (s.mode = .config → exec .halt s = .next s.settled) ∧
    (s.readAddr 0x01).toNat = (if s.mode = .run then 1 else 0) ∧
    let u := s.settled.runCommands captureCommands
    ((∀ n, (s.lines.get n).qualifies = false ∧ s.releaseDue n = false) →
      (∀ i, s.delayDue i = false ∧ s.widthDue i = false) → u = s.settled) ∧
    (s.mode = .run → ∃ ls xs os cl,
      exec .halt s = .next { u with
        mode := .config, lines := ls, slots := xs, outputs := os, claims := cl } ∧
      (∀ n, ls.get n =
        if (u.lines.get n).state = .live ∨ (u.lines.get n).state = .suppressed then
          { u.lines.get n with
            state := .idle, established := false, level := false, qualifier := .stable, interval := 0,
            window := none, quiet := none, seen := 0 }
        else u.lines.get n) ∧
      (∀ i, xs.get i = { u.slots.get i with state := .disarmed, timer := none }) ∧
      (∀ c, c ∈ cl ↔ c ∈ u.claims ∨ ∃ i,
        (u.slots.get i).asserting = true ∧ (u.slots.get i).config.report = true ∧
        c = ⟨.reflex i, false, reflexOffRecord i (u.slots.get i) .halted s.eventStamp⟩) ∧
      (ClaimsOrdered s → cl.Pairwise fun c d => c.source.rank ≤ d.source.rank) ∧
      ∀ n, os.get n =
        if (u.outputs.get n).owner = .reflex ∧ (∃ i, (u.slots.get i).asserting = true) then
          { u.outputs.get n with claimed := (u.outputs.get n).safe }
        else u.outputs.get n)

/-! ### Timebase -/

/-- The phase error (R11) is the distance of V from the nearest multiple of P: it lies above -P/2 and at
most at P/2, V less it is a multiple of P, and it is the only number of that range for which it is. LASTERR
(R190) shows the last one as a 16-bit two's-complement value, held at 32,767 and -32,768. -/
def Obligations.PhaseErrorIsTheNearestMultiple : Prop :=
  (∀ (v : Time) (p : Nat), 0 < p →
    let e := phaseError v p
    2 * e ≤ p ∧ -(p : Int) < 2 * e ∧ (p : Int) ∣ (v.toNat : Int) - e ∧
    ∀ x : Int, -(p : Int) < 2 * x → 2 * x ≤ p → (p : Int) ∣ (v.toNat : Int) - x → x = e) ∧
  ∀ s : State, s.inReset = false →
    (-32768 ≤ s.tb.lastError → s.tb.lastError ≤ 32767 → (s.readAddr 0x3C).toInt = s.tb.lastError) ∧
    (32767 < s.tb.lastError → (s.readAddr 0x3C).toInt = 32767) ∧
    (s.tb.lastError < -32768 → (s.readAddr 0x3C).toInt = -32768)

/-- TICK (R1, R2, R10, R13, R20) where no pulse is evaluated, that is unless SYNC is sampled high after a low
sample since START with sync enable yes (R10): the counter advances by one, or by zero or two on a tick that
a slew adjustment has chosen; the epoch and the last phase error stay; SYNC is sampled; the pending
adjustments and the miss timer count the tick. Every tick leaves its time value, epoch and timebase state
as those of the most recent tick; the state of a tick at which the miss limit is reached is HOLDOVER (R20,
assumption log 8). While the Timebase is STOPPED there is no tick. -/
def Obligations.TickAdvancesTheTimeValue : Prop :=
  ∀ (samples : BitVec 64) (sync first : Bool) (s : State),
    (s.tb.state = .stopped → exec (.tick samples sync first) s = .next s) ∧
    (s.tb.state ≠ .stopped → ∃ t, exec (.tick samples sync first) s = .next t ∧
      t.tb.syncLevel = some sync ∧ t.tb.tickTime = t.tb.counter ∧ t.tb.tickEpoch = t.tb.epoch) ∧
    (s.tb.state ≠ .stopped →
      ¬(s.tb.syncLevel = some false ∧ sync = true ∧ s.tb.syncEnable = true) →
      ∃ t, exec (.tick samples sync first) s = .next t ∧
        t.tb.counter = s.tb.counter +
          (match s.tb.comingAdvance with | .normal => 1 | .held => 0 | .doubled => 2) ∧
        t.tb.epoch = s.tb.epoch ∧ t.tb.lastError = s.tb.lastError ∧
        t.tb.slew = s.tb.comingSlew ∧ t.tb.advance = .normal ∧
        (s.tb.expiryDue = false →
          t.tb.state = s.tb.state ∧ t.tb.missCount = s.tb.missCount ∧ t.tb.badCount = s.tb.badCount ∧
          t.tb.missTimer = s.tb.missTimer.map (· - 1) ∧
          t.tb.tickState = if s.tb.state = .locked ∧ s.tb.missTimer = some 1 ∧
            s.tb.missCount + 1 = s.tb.missLimit then .holdover else s.tb.state))

/-- What the host sets, TICK leaves (R28, R128): the settings of every block, the device mode, the staging
list, the levels of the pins and the window. -/
def Obligations.TickKeepsTheSettings : Prop :=
  ∀ (samples : BitVec 64) (sync first : Bool) (s : State),
    ∃ t, exec (.tick samples sync first) s = .next t ∧
      t.tb.tickDiv = s.tb.tickDiv ∧ t.tb.period = s.tb.period ∧ t.tb.tolerance = s.tb.tolerance ∧
      t.tb.slewLimit = s.tb.slewLimit ∧ t.tb.missLimit = s.tb.missLimit ∧
      t.tb.badLimit = s.tb.badLimit ∧ t.tb.syncEnable = s.tb.syncEnable ∧
      t.tb.stepAllow = s.tb.stepAllow ∧ t.tb.freezeOnHoldover = s.tb.freezeOnHoldover ∧
      t.tb.latch = s.tb.latch ∧ t.tb.tbset = s.tb.tbset ∧
      (∀ n, (t.lines.get n).config = (s.lines.get n).config) ∧
      (∀ i, (t.slots.get i).config = (s.slots.get i).config) ∧
      (∀ g, (t.queues.get g).quota = (s.queues.get g).quota) ∧
      (∀ g, (t.groups.get g).deliver = (s.groups.get g).deliver ∧
        (t.groups.get g).irqEnable = (s.groups.get g).irqEnable) ∧
      (∀ n, (t.outputs.get n).owner = (s.outputs.get n).owner ∧
        (t.outputs.get n).safe = (s.outputs.get n).safe ∧
        (t.outputs.get n).drive = (s.outputs.get n).drive) ∧
      t.sched.staging = s.sched.staging ∧ t.sched.cat = s.sched.cat ∧ t.sched.sarg = s.sched.sarg ∧
      t.mode = s.mode ∧ t.inReset = s.inReset ∧ t.frzn = s.frzn ∧ t.wsel = s.wsel ∧
      t.errEnable = s.errEnable ∧ t.refCode = s.refCode ∧ t.refAddr = s.refAddr ∧
      t.tsel = s.tsel ∧ t.tidx = s.tidx ∧ t.tdata = s.tdata ∧ t.readData = s.readData

/-- A good or slewed pulse (R10 to R13, R16): SYNC high at a tick after a low sample since START, with sync
enable yes. The error becomes the last phase error, |e| adjustments are scheduled floor(P / (|e| + 1)) ticks
apart, and the Timebase is LOCKED with its counters at 0 and the miss timer started for P + tolerance ticks;
a LOCKED record is offered where it was not LOCKED. An expiry of the miss timer at the same tick does not
happen where the pulse is taken first; where it is taken first and reaches the miss limit, the Timebase
enters HOLDOVER, offers LOST ahead of LOCKED, sets SYNC and gives the freeze cause where the switch says so
(R17, R18), and FROZEN where that freezes the stage, beside the error flags of the tick before, completed
(assumption log 2); that both records carry the pulse tick's stamp is the model's choice (assumption log 9). -/
def Obligations.GoodPulseLocksAndSlews : Prop :=
  ∀ (samples : BitVec 64) (first : Bool) (s : State), TimebaseSafe s.tb → s.tb.state ≠ .stopped →
    s.tb.syncLevel = some false → s.tb.syncEnable = true → s.tb.expiryDue = false →
    let v := s.tb.counter +
      (match s.tb.comingAdvance with | .normal => 1 | .held => 0 | .doubled => 2)
    let e := phaseError v s.tb.period.toNat
    let lost := s.tb.losesFirst first
    let locked := decide (s.tb.state = .locked) && !lost
    e.natAbs ≤ s.tb.slewLimit.toNat →
    ∃ t, exec (.tick samples true first) s = .next t ∧
      t.tb = { s.tb with
        state := .locked, tickState := .locked, tickTime := v, tickEpoch := s.tb.epoch
        counter := v, lastError := e, syncLevel := some true, missCount := 0, badCount := 0
        missReached := locked && s.tb.missReached, badReached := locked && s.tb.badReached
        missTimer := some (s.tb.period.toNat + s.tb.tolerance.toNat), advance := .normal
        slew := if e = 0 then none else some {
          ahead := decide (0 < e), left := e.natAbs, spacing := s.tb.period.toNat / (e.natAbs + 1)
          next := s.tb.period.toNat / (e.natAbs + 1) } } ∧
      t.causes = (if lost && s.tb.freezeOnHoldover then { s.causes with holdover := true } else s.causes) ∧
      t.errFlags = s.completeTick.errFlags ||| (if lost then 0x08 else 0) |||
        (if lost && s.tb.freezeOnHoldover && !s.frozen then 0x40 else 0) ∧
      t.claims =
        ((if lost then [⟨.lost, 0⟩] else []) ++ (if locked then [] else [⟨.locked, e⟩]) :
          List SyncEvent).map (fun x => ⟨.timebase, true, syncRecord x ⟨v, s.tb.epoch, false⟩⟩) ++
        (if lost && s.tb.freezeOnHoldover && !s.frozen then
          [⟨.output, true, freezeRecord false { holdover := true } ⟨v, s.tb.epoch, true⟩⟩] else [])

/-- A stepped pulse (R10, R12, R14 to R16): the tick's time value is V less the error and its epoch one
higher, the Timebase is LOCKED, the STEP record comes before a LOCKED record, and every queue takes the run
notice (R58). An expiry at the same tick that is taken first and reaches the miss limit makes LOST and the
freeze cause before it (R17, R18): that LOST then stands ahead of STEP, both in the new run, is the model's
choice (assumption log 9). The entries reached at the stepped value are taken in list order (R137 to R139):
one reached against V fires normally, one ahead against V is late and fires or is skipped by its late
policy; every other entry keeps its place and waits, as after a backward step (R141). `u` is the state in
which the tick before is completed (assumption log 2), and that TICK takes all these entries itself is
assumption log 13. -/
def Obligations.SteppedPulseStepsTheTime : Prop :=
  ∀ (samples : BitVec 64) (first : Bool) (s : State), TimebaseSafe s.tb → s.tb.state ≠ .stopped →
    s.tb.syncLevel = some false → s.tb.syncEnable = true → s.tb.expiryDue = false →
    s.tb.stepAllow = true →
    let u := s.completeTick
    let v := s.tb.counter +
      (match s.tb.comingAdvance with | .normal => 1 | .held => 0 | .doubled => 2)
    let e := phaseError v s.tb.period.toNat
    let now := v - BitVec.ofInt 48 e
    let st : Stamp := ⟨now, s.tb.epoch + 1, false⟩
    let lost := s.tb.losesFirst first
    let locked := decide (s.tb.state = .locked) && !lost
    let freezes := lost && s.tb.freezeOnHoldover && !s.frozen
    let offered : List Claim :=
      ((if lost then [⟨.lost, 0⟩] else []) ++ ⟨.step, e⟩ :: (if locked then [] else [⟨.locked, e⟩]) :
        List SyncEvent).map fun x => ⟨.timebase, true, syncRecord x st⟩
    let take (b : State) (a : Active) : State :=
      if reached v a.entry.due = true then b.fireEntry a.entry false true st
      else match a.entry.late with
        | .fire => b.fireEntry a.entry true true st
        | .skip => b.skipEntry a.entry st
    s.tb.slewLimit.toNat < e.natAbs →
    ∃ t, exec (.tick samples true first) s = .next t ∧
      t.tb = { s.tb with
        state := .locked, tickState := .locked, tickTime := now, tickEpoch := s.tb.epoch + 1
        counter := now, epoch := s.tb.epoch + 1, lastError := e, syncLevel := some true
        missCount := 0, badCount := 0
        missReached := locked && s.tb.missReached, badReached := locked && s.tb.badReached
        missTimer := some (s.tb.period.toNat + s.tb.tolerance.toNat), advance := .normal, slew := none } ∧
      t.causes = (if lost && s.tb.freezeOnHoldover then { s.causes with holdover := true } else s.causes) ∧
      (t.claims.filter fun c => c.source == .timebase) = offered ∧
      (∀ g, t.queues.get g = { u.queues.get g with
        runStart := (u.queues.get g).records.length, highWater := none }) ∧
      (∀ a ∈ u.sched.active, reached now a.entry.due = false → a ∈ t.sched.active) ∧
      t = (u.sched.active.filter fun a => reached now a.entry.due).foldl take { t with
        outputs := u.outputs
        sched := { u.sched with active := u.sched.active.filter fun a => !reached now a.entry.due }
        claims := offered ++ (if freezes then
          [⟨.output, true, freezeRecord false { holdover := true } { st with unsync := true }⟩] else [])
        errFlags := u.errFlags ||| (if lost then 0x08 else 0) ||| (if freezes then 0x40 else 0) }

/-- A bad pulse (R10, R12, R16, R18, R19, R99): a FAULT record and the flag SYNC, and no correction. In FREE
and HOLDOVER nothing else changes; in LOCKED the bad counter rises and the miss timer starts afresh, or, at
the bad limit, the Timebase enters HOLDOVER, offers LOST and gives the freeze cause where the switch says so.
An expiry at the same tick that is taken first raises the miss counter, and the pulse is evaluated in the
state that results (R17): HOLDOVER, with LOST ahead of FAULT, where it reaches the miss limit. The error flags are those of the tick
before, completed (assumption log 2), with SYNC, and with FROZEN where the cause freezes the stage. -/
def Obligations.BadPulseCountsTowardsHoldover : Prop :=
  ∀ (samples : BitVec 64) (first : Bool) (s : State), TimebaseSafe s.tb → s.tb.state ≠ .stopped →
    s.tb.syncLevel = some false → s.tb.syncEnable = true → s.tb.expiryDue = false →
    s.tb.stepAllow = false →
    let v := s.tb.counter +
      (match s.tb.comingAdvance with | .normal => 1 | .held => 0 | .doubled => 2)
    let e := phaseError v s.tb.period.toNat
    let lost := s.tb.losesFirst first
    let state : TimebaseState := if lost then .holdover else s.tb.state
    s.tb.slewLimit.toNat < e.natAbs →
    ∃ t, exec (.tick samples true first) s = .next t ∧
      t.errFlags = s.completeTick.errFlags ||| 0x08 |||
        (if (lost || decide (state = .locked ∧ s.tb.badCount + 1 = s.tb.badLimit)) &&
          s.tb.freezeOnHoldover && !s.frozen then 0x40 else 0) ∧
      let u : Timebase := { s.tb with
        tickTime := v, tickEpoch := s.tb.epoch, counter := v, lastError := e, syncLevel := some true
        advance := .normal, slew := none
        missCount := if s.tb.expiresFirst first then s.tb.missCount + 1 else s.tb.missCount
        missReached := lost || s.tb.missReached }
      let frozen := { s.causes with holdover := true }
      let enters : List Claim := if s.tb.freezeOnHoldover && !s.frozen then
        [⟨.output, true, freezeRecord false { holdover := true } ⟨v, s.tb.epoch, true⟩⟩] else []
      let sync (x : SyncEvent) (unsync : Bool) : Claim :=
        ⟨.timebase, true, syncRecord x ⟨v, s.tb.epoch, unsync⟩⟩
      (state ≠ .locked →
        t.tb = { u with state := state, tickState := state, missTimer := none } ∧
        t.causes = (if lost && s.tb.freezeOnHoldover then frozen else s.causes) ∧
        t.claims = (if lost then [sync ⟨.lost, 0⟩ true] else []) ++ sync ⟨.fault, e⟩ true ::
          (if lost then enters else [])) ∧
      (state = .locked → s.tb.badCount + 1 ≠ s.tb.badLimit →
        t.tb = { u with
          tickState := .locked, badCount := s.tb.badCount + 1
          missTimer := some (s.tb.period.toNat + s.tb.tolerance.toNat) } ∧
        t.causes = s.causes ∧ t.claims = [sync ⟨.fault, e⟩ false]) ∧
      (state = .locked → s.tb.badCount + 1 = s.tb.badLimit →
        t.tb = { u with
          state := .holdover, tickState := .holdover, badCount := s.tb.badCount + 1, badReached := true
          missTimer := none } ∧
        t.causes = (if s.tb.freezeOnHoldover then frozen else s.causes) ∧
        t.claims = sync ⟨.fault, e⟩ true :: sync ⟨.lost, e⟩ true :: enters)

/-- MISS_TIMER_EXPIRY (R17, R18): the miss counter rises; below the miss limit the timer starts again for P
ticks, and at it the Timebase enters HOLDOVER, offers LOST with phase error 0, sets SYNC and gives the
freeze cause where the switch says so. Where no expiry is due nothing happens (assumption log 1). -/
def Obligations.MissTimerExpiryCountsAMiss : Prop :=
  ∀ s : State,
    (s.tb.expiryDue = false → exec .missTimerExpiry s = .next s) ∧
    (s.tb.state = .locked → s.tb.missTimer = some 0 →
      (s.tb.missCount + 1 ≠ s.tb.missLimit →
        exec .missTimerExpiry s = .next { s with tb := { s.tb with
          missCount := s.tb.missCount + 1, missTimer := some s.tb.period.toNat, tickState := .locked } }) ∧
      (s.tb.missCount + 1 = s.tb.missLimit →
        let t : State := { s with
          tb := { s.tb with
            state := .holdover, tickState := .holdover, missCount := s.tb.missCount + 1
            missReached := true, missTimer := none }
          claims := insertClaim ⟨.timebase, true, syncRecord ⟨.lost, 0⟩ ⟨s.tb.tickTime, s.tb.tickEpoch, true⟩⟩
            s.claims
          errFlags := s.errFlags ||| 0x08 }
        (s.tb.freezeOnHoldover = false → exec .missTimerExpiry s = .next t) ∧
        (s.tb.freezeOnHoldover = true → s.frozen = true →
          exec .missTimerExpiry s = .next { t with causes := { s.causes with holdover := true } }) ∧
        (s.tb.freezeOnHoldover = true → s.frozen = false →
          exec .missTimerExpiry s = .next { t with
            causes := { s.causes with holdover := true }
            claims := insertClaim ⟨.output, true,
                freezeRecord false { holdover := true } ⟨s.tb.tickTime, s.tb.tickEpoch, true⟩⟩ t.claims
            errFlags := s.errFlags ||| 0x48 })))

/-- SLEW_ADJUSTMENT (R13): at the end of a slew spacing the coming tick becomes a held tick where the counter
is ahead and a doubled tick where it is behind, and one adjustment fewer is pending. Where none falls at the
coming tick nothing happens; that the adjustment comes before its tick is the model's (assumption log 1,
7). -/
def Obligations.SlewAdjustmentChoosesTheTick : Prop :=
  ∀ s : State,
    (∀ x, s.tb.state ≠ .stopped → s.tb.slew = some x → s.tb.advance = .normal → x.next ≤ 1 →
      exec .slewAdjustment s = .next { s with tb := { s.tb with
        advance := if x.ahead then .held else .doubled
        slew := if x.left ≤ 1 then none
          else some { x with left := x.left - 1, next := x.spacing } } }) ∧
    (s.tb.state = .stopped ∨ s.tb.slew = none ∨ s.tb.advance ≠ .normal ∨
        (∃ x, s.tb.slew = some x ∧ 1 < x.next) →
      exec .slewAdjustment s = .next s)

/-- A slew removes the phase error that scheduled it (R13): with no further pulse, the |e| adjustments are all
made |e| * floor(P / (|e| + 1)) ticks after the pulse, which is fewer than P ticks, and by then the counter
has advanced by that many ticks less e. -/
def Obligations.SlewRemovesThePhaseError : Prop :=
  ∀ (samples : BitVec 64) (s : State) (e : Int),
    s.tb.state ≠ .stopped → s.tb.advance = .normal → e ≠ 0 → 2 * e.natAbs ≤ s.tb.period.toNat →
    s.tb.slew = slewFor s.tb.period.toNat e →
    let n := e.natAbs * (s.tb.period.toNat / (e.natAbs + 1))
    let t := s.quietTicks samples n
    n < s.tb.period.toNat ∧ t.tb.slew = none ∧ t.tb.advance = .normal ∧
      t.tb.counter = s.tb.counter + BitVec.ofNat 48 n - BitVec.ofInt 48 e

/-- START, PRESET, STOP and SWITCHES (R4 to R6, R8). START is accepted in STOPPED and refused with BUSY
elsewhere; after it SYNC has no sampled level (R10). PRESET is accepted in STOPPED with the active list
empty and the commit OPEN, and refused with BUSY otherwise: it loads the counter, raises the epoch and gives
the run notice. STOP is refused with MODE in RUN mode; in CONFIG mode it stops the Timebase and discards its
slew and its miss timer, the counters kept. An accepted write sets the three switches; sync enable turned off
in LOCKED or HOLDOVER puts the Timebase in FREE. STOP finds done what the tick before it has still to do, its
firings among it (R145), and SWITCHES an expiry of the miss timer: the model's choice (assumption log 8).
TBSTAT (R191), EPOCH and TBCTL show the Timebase as it stands; that bit 2 of TBSTAT still shows adjustments
pending between the last SLEW_ADJUSTMENT and the tick it has chosen is the model's choice (assumption log
7). -/
def Obligations.TimebaseCommands : Prop :=
  ∀ (a b c : Bool) (s : State), s.inReset = false →
    let u := s.settled.missExpiry
    let f := s.settled.runCommands (finishCommands s.sched.active.length)
    (s.tb.state = .stopped →
      exec (.start a b c) s = .next { s.settled with tb := { s.tb with
        state := .free, missCount := 0, badCount := 0, missReached := false, badReached := false
        syncLevel := none, syncEnable := a, stepAllow := b, freezeOnHoldover := c } }) ∧
    (s.tb.state ≠ .stopped → exec (.start a b c) s = .next (s.settled.refuse .busy 0x30)) ∧
    (s.tb.state = .stopped → s.sched.active = [] → s.sched.commit = .open_ →
      ∃ qs, exec (.preset a b c) s = .next { s.settled with
          tb := { s.tb with
            counter := s.tb.tbset, epoch := s.tb.epoch + 1
            syncEnable := a, stepAllow := b, freezeOnHoldover := c }
          queues := qs } ∧
        ∀ g, qs.get g = { s.settled.queues.get g with
          runStart := (s.settled.queues.get g).count, highWater := none }) ∧
    (¬(s.tb.state = .stopped ∧ s.sched.active = [] ∧ s.sched.commit = .open_) →
      exec (.preset a b c) s = .next (s.settled.refuse .busy 0x30)) ∧
    (s.mode = .run → exec (.stop a b c) s = .next (s.settled.refuse .mode 0x30)) ∧
    (s.mode = .config → s.tb.state ≠ .stopped →
      exec (.stop a b c) s = .next { f with tb := { f.tb with
        state := .stopped, slew := none, advance := .normal, missTimer := none
        syncEnable := a, stepAllow := b, freezeOnHoldover := c } }) ∧
    (s.mode = .config → s.tb.state = .stopped →
      exec (.stop a b c) s = .next { s.settled with tb := { s.tb with
        syncEnable := a, stepAllow := b, freezeOnHoldover := c } }) ∧
    (s.tb.syncEnable = true → a = false → u.tb.state = .locked ∨ u.tb.state = .holdover →
      exec (.switches a b c) s = .next { u with tb := { u.tb with
        state := .free, slew := none, advance := .normal, missTimer := none
        syncEnable := a, stepAllow := b, freezeOnHoldover := c } }) ∧
    (¬(s.tb.syncEnable = true ∧ a = false ∧ (u.tb.state = .locked ∨ u.tb.state = .holdover)) →
      exec (.switches a b c) s = .next { u with tb := { u.tb with
        syncEnable := a, stepAllow := b, freezeOnHoldover := c } }) ∧
    exec .missTimerExpiry s.settled = .next u ∧ (s.tb.expiryDue = false → u = s.settled) ∧
    (s.readAddr 0x31).toNat =
      (match s.tb.state with | .stopped => 0 | .free => 1 | .locked => 2 | .holdover => 3) +
      (if s.tb.slew ≠ none ∨ s.tb.advance ≠ .normal then 4 else 0) + 16 * s.tb.missCount.toNat +
      256 * s.tb.badCount.toNat + (if s.tb.missReached then 4096 else 0) +
      (if s.tb.badReached then 8192 else 0) ∧
    (s.readAddr 0x35).toNat = s.tb.epoch.toNat ∧
    (s.readAddr 0x30).toNat = (if s.tb.syncEnable then 16 else 0) + (if s.tb.stepAllow then 32 else 0) +
      (if s.tb.freezeOnHoldover then 64 else 0)

/-- The timebase settings (R7, R192): BUSY where the setting is not writable, then RANGE, then the setting
takes the value. TICKDIV is writable while STOPPED, the sync parameters while STOPPED or with sync disabled.
A word of SYNCPER is checked on the period that it would make. Each setting reads back as it stands. -/
def Obligations.TimebaseSettingsAreChecked : Prop :=
  ∀ (w : Word) (s : State), s.inReset = false →
    let syncOk := s.tb.state = .stopped ∨ s.tb.syncEnable = false
    let hi := s.tb.period.toNat / 65536
    let lo := s.tb.period.toNat % 65536
    let write (a : Addr) (ok inRange : Prop) (t : Timebase) : Prop :=
      (¬ok → exec (.registerWrite a w) s = .next (s.settled.refuse .busy a)) ∧
      (ok → ¬inRange → exec (.registerWrite a w) s = .next (s.settled.refuse .range a)) ∧
      (ok → inRange → exec (.registerWrite a w) s = .next { s.settled with tb := t })
    write 0x36 (s.tb.state = .stopped) (1 ≤ w.toNat ∧ w.toNat ≤ 4096) { s.tb with tickDiv := w } ∧
    write 0x37 syncOk (65536 * hi + w.toNat ≠ 0)
      { s.tb with period := BitVec.ofNat 24 (65536 * hi + w.toNat) } ∧
    write 0x38 syncOk (w.toNat < 256 ∧ 65536 * w.toNat + lo ≠ 0)
      { s.tb with period := BitVec.ofNat 24 (65536 * w.toNat + lo) } ∧
    write 0x39 syncOk True { s.tb with tolerance := w } ∧
    write 0x3A syncOk (w.toNat ≤ 4095) { s.tb with slewLimit := BitVec.ofNat 12 w.toNat } ∧
    write 0x3B syncOk (w.toNat % 16 ≠ 0 ∧ w.toNat / 16 % 16 ≠ 0)
      { s.tb with missLimit := BitVec.ofNat 4 w.toNat, badLimit := BitVec.ofNat 4 (w.toNat / 16) } ∧
    s.readAddr 0x36 = s.tb.tickDiv ∧
    (s.readAddr 0x37).toNat = lo ∧ (s.readAddr 0x38).toNat = hi ∧ s.readAddr 0x39 = s.tb.tolerance ∧
    (s.readAddr 0x3A).toNat = s.tb.slewLimit.toNat ∧
    (s.readAddr 0x3B).toNat = s.tb.missLimit.toNat + 16 * s.tb.badLimit.toNat

/-- TIME_READ (R9): bits 15 to 0 of the time value go to the bus and the whole value to the time read latch,
which TIME1 and TIME2 then show. That the model holds the word read in a field of its own is its choice
(assumption log 18). -/
def Obligations.TimeReadLatchesTheTimeValue : Prop :=
  ∀ s : State, s.inReset = false → ∃ t,
    exec .timeRead s = .next t ∧
    t = { s.settled with readData := t.readData, tb := { s.tb with latch := s.tb.counter } } ∧
    s.readAddr 0x32 = t.readData ∧
    (t.readAddr 0x34 ++ t.readAddr 0x33 ++ t.readData : BitVec 48) = s.tb.counter

/-! ### Input Unit -/

/-- What TICK finds of the tick before it, `u` (R55: "Every claim offered at a tick is taken before the next
tick"): every claim taken, and, while the Timebase runs, no qualification, release, delay, width, commit time
or attention age left to take, and, in a safe state, no expiry and no firing. That TICK itself completes
what its happenings have left, as the commands of those happenings sent in a fixed order, is the model's
choice (assumption log 2). While the Timebase is STOPPED none of them is due (R1, R145). TICK acts on `u` and
keeps all else of it: with no evaluated pulse (R10) it writes the Timebase, the lines, the slots and the
groups only; with one that makes no step also the freeze causes, the waiting claims and the error flags
(GoodPulseLocksAndSlews, BadPulseCountsTowardsHoldover); a step gives every queue the run notice (R58) and
keeps its records. An expiry that is due is taken first, so that TICK acts as after MISS_TIMER_EXPIRY. -/
def Obligations.TickCompletesThePrecedingTick : Prop :=
  ∀ s : State, let u := s.completeTick
    let f := s.runCommands (finishCommands s.sched.active.length)
    u = f.runCommands (List.replicate f.claims.length .claim) ∧ u.claims = [] ∧
    (s.tb.state = .stopped → f = s) ∧
    (s.tb.state ≠ .stopped →
      (∀ n, (u.lines.get n).qualifies = false ∧ u.releaseDue n = false) ∧
      (∀ i, u.delayDue i = false ∧ u.widthDue i = false) ∧ u.commitDue = false ∧
      (∀ g, u.ageDue g = false) ∧
      (TimebaseSafe s.tb → u.tb.expiryDue = false) ∧
      (ScheduleSafe s.sched → ScheduleOrdered s → u.headReached = false) ∧
      ∀ (samples : BitVec 64) (sync first : Bool),
        let v := s.tb.counter +
          (match s.tb.comingAdvance with | .normal => 1 | .held => 0 | .doubled => 2)
        let pulse := s.tb.syncLevel = some false ∧ sync = true ∧ s.tb.syncEnable = true
        let steps := pulse ∧ s.tb.stepAllow = true ∧
          s.tb.slewLimit.toNat < (phaseError v s.tb.period.toNat).natAbs
        ∃ t, exec (.tick samples sync first) s = .next t ∧
          (¬pulse →
            t = { u with tb := t.tb, lines := t.lines, slots := t.slots, groups := t.groups }) ∧
          (¬steps → t = { u with
            tb := t.tb, lines := t.lines, slots := t.slots, groups := t.groups
            causes := t.causes, claims := t.claims, errFlags := t.errFlags }) ∧
          (steps → t.drawn = u.drawn ∧ ∀ g, t.queues.get g = { u.queues.get g with
            runStart := (u.queues.get g).records.length, highWater := none }) ∧
          (TimebaseSafe s.tb → ∀ m, exec .missTimerExpiry s = .next m →
            exec (.tick samples sync first) m = .next t))

/-- TICK on every line, slot and group (R1, R27 to R31, R34, R37, R42). `u` is the state in which the tick
before is completed (assumption log 2). A stepped pulse, and no other tick, makes a step: it moves the time
value, the last selected onset and a pending onset by the step amount, which is the phase error negated (R12,
R14), and raises the epoch (R20); the first sample of a line establishes its level; any later sample of a sampled line
starts, continues or abandons a pending change; every running count takes the tick (assumption log 11). -/
def Obligations.TickSamplesEveryLine : Prop :=
  ∀ (samples : BitVec 64) (sync first : Bool) (s : State), s.tb.state ≠ .stopped →
    let u := s.completeTick
    let v := s.tb.counter +
      (match s.tb.comingAdvance with | .normal => 1 | .held => 0 | .doubled => 2)
    let e := phaseError v s.tb.period.toNat
    let steps := s.tb.syncLevel = some false ∧ sync = true ∧ s.tb.syncEnable = true ∧
      s.tb.stepAllow = true ∧ s.tb.slewLimit.toNat < e.natAbs
    let amount : Time := if steps then -BitVec.ofInt 48 e else 0
    ∃ t, exec (.tick samples sync first) s = .next t ∧
      t.tb.counter = v + amount ∧ t.tb.epoch = (if steps then s.tb.epoch + 1 else s.tb.epoch) ∧
      (∀ n, let l := u.lines.get n
        let b := samples.getLsbD n.val
        let q : Qualifier := match l.qualifier with
          | .stable => .stable
          | .pending v o k =>
            if steps then .pending v ⟨o.time + amount, t.tb.epoch, o.state, true⟩ k
            else .pending v o k
        t.lines.get n =
          if ¬(l.state = .live ∨ l.state = .suppressed) then
            { l with qualifier := q, lastOnset := l.lastOnset + amount }
          else if l.established = false then
            { l with established := true, level := b, qualifier := q, lastOnset := l.lastOnset + amount }
          else { l with
            lastOnset := l.lastOnset + amount
            interval := min (l.interval + 1) (2 ^ 32 - 1)
            window := l.window.map fun w => ⟨w.count, min (w.age + 1) (2 ^ 32 - 1)⟩
            quiet := l.quiet.map (· - 1)
            qualifier := match q with
              | .stable =>
                if b = l.level then .stable
                else .pending b ⟨t.tb.counter, t.tb.epoch, t.tb.tickState, false⟩ 1
              | .pending v o k => if b = v then .pending v o (k + 1) else .stable }) ∧
      (∀ i, t.slots.get i = { u.slots.get i with timer := (u.slots.get i).timer.map (· - 1) }) ∧
      ∀ g, t.groups.get g = { u.groups.get g with ageTimer := (u.groups.get g).ageTimer.map (· - 1) }

/-- A change with filter f qualifies exactly f ticks after its onset tick (R30, R31): while every tick samples
the new level, the change stays pending with the onset of the first of them, its stable count is the number
of ticks, and it qualifies at the (f + 1)-th, the onset tick counted. -/
def Obligations.FilterDelaysAChangeByItsTicks : Prop :=
  ∀ (samples : BitVec 64) (s : State) (n : LineNo), s.tb.state ≠ .stopped →
    let l := s.lines.get n
    l.state = .live ∨ l.state = .suppressed → l.established = true → l.qualifier = .stable →
    samples.getLsbD n.val = !l.level →
    ∀ k, 1 ≤ k → k ≤ l.config.filter.toNat + 1 →
      let onset := (s.quietTicks samples 1).tb
      let m := (s.quietTicks samples k).lines.get n
      m.qualifier = .pending (!l.level) ⟨onset.counter, onset.epoch, onset.tickState, false⟩ k ∧
      m.level = l.level ∧ (m.qualifies = true ↔ k = l.config.filter.toNat + 1)

/-- QUALIFICATION (R31 to R40, R43). A change that is not due changes nothing (assumption log 1), nor does any
while the Timebase is STOPPED and no tick comes (R1). A qualified change becomes the level. On a SUPPRESSED
line it restarts the quiet timer and is counted. On a LIVE line, not selected, it is passed to the slots;
selected, it is recorded and passed where it passes the chatter check, and puts the line in SUPPRESSED where
it does not. The slots read the levels as they stand
after every qualification of the tick. The interval that R34 gives no value for, of a change whose onset
precedes the line's release, is a free value (assumption log 26), and its draw is counted. -/
def Obligations.QualificationHandlesTheChange : Prop :=
  ∀ (n : LineNo) (s : State),
    let l := s.lines.get n
    let f := l.config.filter.toNat
    ((∀ v o k, l.qualifier = .pending v o k → k < f + 1) → exec (.qualification n) s = .next s) ∧
    (s.tb.state = .stopped → exec (.qualification n) s = .next s) ∧
    ∀ (v : Bool) (o : Onset) (k : Nat), s.tb.state ≠ .stopped →
      l.qualifier = .pending v o k → f + 1 ≤ k →
      let put (m : Line) : State :=
        { s with lines := s.lines.set n { m with level := v, qualifier := .stable } }
      let levels : LineNo → Bool := fun m => match (s.lines.get m).qualifier with
        | .stable => (s.lines.get m).level
        | .pending w _ j =>
          if (s.lines.get m).config.filter.toNat + 1 ≤ j then w else (s.lines.get m).level
      let selected := l.config.edge = .both ∨ (l.config.edge = .rise ∧ v = true) ∨
        (l.config.edge = .fall ∧ v = false)
      let unsync := decide (o.state ≠ .locked)
      let edge : Record :=
        { kind := .edge, epoch := o.epoch, source := BitVec.ofNat 6 n.val, time := o.time
          interval :=
            if l.firstMark ∨ l.interval = 2 ^ 32 - 1 then 0xFFFFFFFF
            else if l.interval < f then Config.openInterval s.drawn
            else BitVec.ofNat 32 (l.interval - f)
          flags := {
            rise := v, first := l.firstMark, sat := !l.firstMark && decide (l.interval = 2 ^ 32 - 1)
            urgent := l.config.urgent, stepped := o.rebased, unsync := unsync } }
      let suppress : Record :=
        { kind := .suppress, epoch := o.epoch, source := BitVec.ofNat 6 n.val, time := o.time
          tag := l.config.chatterLimit.zeroExtend 16
          flags := {
            rise := v, urgent := l.config.urgent, stepped := o.rebased, unsync := unsync } }
      let recorded (w : Option ChatterWindow) : Prop :=
        exec (.qualification n) s = .next (State.passChange
          { put { l with window := w, interval := f, firstMark := false, lastOnset := o.time } with
            claims := insertClaim ⟨.input n, true, edge⟩ s.claims
            drawn := if l.firstMark = false ∧ l.interval < f then s.drawn + 1 else s.drawn } n v levels)
      (l.state = .suppressed → exec (.qualification n) s = .next
        (put { l with
          quiet := some l.config.quietTime.toNat, seen := min (l.seen + 1) 65535 })) ∧
      (l.state = .live → ¬selected →
        exec (.qualification n) s = .next ((put l).passChange n v levels)) ∧
      (l.state = .live → selected → l.config.chatterLimit = 0 → recorded none) ∧
      (l.state = .live → selected → l.config.chatterLimit ≠ 0 →
        (l.window = none → recorded (some ⟨1, f⟩)) ∧
        (∀ w, l.window = some w → l.config.chatterWindow.toNat + f ≤ w.age →
          recorded (some ⟨1, f⟩)) ∧
        (∀ w, l.window = some w → w.age < l.config.chatterWindow.toNat + f →
          w.count < l.config.chatterLimit.toNat → recorded (some ⟨w.count + 1, w.age⟩)) ∧
        (∀ w, l.window = some w → w.age < l.config.chatterWindow.toNat + f →
          l.config.chatterLimit.toNat ≤ w.count →
          exec (.qualification n) s = .next
            { put { l with
                state := .suppressed, levelBefore := l.level, seen := 0
                quiet := some l.config.quietTime.toNat } with
              claims := insertClaim ⟨.input n, true, suppress⟩ s.claims }))

/-- RELEASE (R41): the quiet timer of a SUPPRESSED line has run out, with no qualification of the tick left
to take: R28 puts every line's qualification, phases 2 and 3, before the releases of phase 4, from which the
model reads that any of them holds back a release (assumption log 12). The line is LIVE with its level kept and established and its
counts restarted; a RELEASE record is offered, and behind it a LEVEL record where the level differs from the
one before suppression. Where no release is due nothing happens (assumption log 1), nor while the Timebase is STOPPED (R1). -/
def Obligations.ReleaseReportsTheLine : Prop :=
  ∀ (n : LineNo) (s : State),
    let l := s.lines.get n
    let unsync := decide (s.tb.tickState ≠ .locked)
    let release : Record :=
      { kind := .release, epoch := s.tb.tickEpoch, source := BitVec.ofNat 6 n.val, time := s.tb.tickTime
        tag := BitVec.ofNat 16 l.seen, detail := if l.level then 1 else 0
        flags := { urgent := l.config.urgent, unsync := unsync } }
    let level : Record :=
      { kind := .level, epoch := s.tb.tickEpoch, source := BitVec.ofNat 6 n.val, time := s.tb.tickTime
        interval := if l.interval = 2 ^ 32 - 1 then 0xFFFFFFFF else BitVec.ofNat 32 l.interval
        flags := {
          rise := l.level, level := l.level, sat := decide (l.interval = 2 ^ 32 - 1)
          urgent := l.config.urgent, unsync := unsync } }
    let t : State := { s with
      lines := s.lines.set n { l with
        state := .live, established := true, interval := 0, window := none, quiet := none, seen := 0 }
      claims := insertClaim ⟨.input n, true, release⟩ s.claims }
    (¬(l.state = .suppressed ∧ l.quiet = some 0) → exec (.release n) s = .next s) ∧
    ((∃ m, (s.lines.get m).qualifies = true) → exec (.release n) s = .next s) ∧
    (s.tb.state = .stopped → exec (.release n) s = .next s) ∧
    (s.tb.state ≠ .stopped → l.state = .suppressed → l.quiet = some 0 → (∀ m, (s.lines.get m).qualifies = false) →
      exec (.release n) s = .next
        (if l.level = l.levelBefore then t
         else { t with claims := insertClaim ⟨.input n, true, level⟩ t.claims }))

/-! ### Reflex Unit -/

/-- A qualified change passed to the Reflex Unit acts on every slot for which it is a trigger, by the state
and the retrigger policy of the slot, and on no other (R107 to R110, R112 to R114). A slot that asserts or
is cut short, with report yes, offers its records in the order REFLEX_OFF, REFLEX_ON (R113, R122, R123),
and a beginning assertion that covers a line REFLEX does not own sets BLOCKED (R93, R106). Where some slot
begins or ends an assertion, every line that REFLEX owns takes its safe value, inverted exactly when a slot
that then asserts covers it (R93); every other line, and all but the slots, the output lines, the claims and
BLOCKED, is left as it was. -/
def Obligations.PassedChangeReachesTheSlots : Prop :=
  ∀ (s : State) (n : LineNo) (v : Bool) (levels : LineNo → Bool),
    let t := s.passChange n v levels
    let trigger (x : Slot) : Prop := x.config.trigger = n ∧
      (x.config.edge = .either ∨ (x.config.edge = .rise ∧ v = true) ∨
        (x.config.edge = .fall ∧ v = false)) ∧
      ∀ g, x.config.gate = some g → levels g.line = g.level
    let delayed (x : Slot) : Slot :=
      { x with edge := some v, state := .delaying, timer := some x.config.delay.toNat }
    let asserted (x : Slot) : Slot :=
      if x.config.width = 0 then { x with edge := some v, state := .holding, timer := none }
      else { x with edge := some v, state := .active, timer := some x.config.width.toNat }
    let begins (x : Slot) : Prop := trigger x ∧ x.config.delay = 0 ∧
      (x.state = .armed ∨ (x.state = .active ∧ x.config.policy = .restart))
    let cut (x : Slot) : Prop := trigger x ∧ x.state = .active ∧ x.config.policy = .restart
    (∀ i, let x := s.slots.get i
      let y := t.slots.get i
      (¬trigger x → y = x) ∧
      (trigger x → y = match x.state with
        | .disarmed => x
        | .armed => if x.config.delay = 0 then asserted x else delayed x
        | .delaying => if x.config.policy = .restart then delayed x else x
        | .active => match x.config.policy with
          | .ignore => x
          | .extend => { x with timer := some x.config.width.toNat }
          | .restart => if x.config.delay = 0 then asserted x else delayed x
        | .holding => x)) ∧
    (∀ c, c ∈ t.claims ↔ c ∈ s.claims ∨ ∃ i, let x := s.slots.get i
      x.config.report = true ∧
        ((cut x ∧ c = ⟨.reflex i, true, reflexOffRecord i x .retriggered s.tickStamp⟩) ∨
         (begins x ∧ c = ⟨.reflex i, true, reflexOnRecord i { x with edge := some v } s.tickStamp⟩))) ∧
    (ClaimsOrdered s → ∀ i, let x := s.slots.get i
      x.config.report = true → cut x → x.config.delay = 0 →
        (t.claims.filter fun c => c.source == .reflex i) =
          (s.claims.filter fun c => c.source == .reflex i) ++
            [⟨.reflex i, true, reflexOffRecord i x .retriggered s.tickStamp⟩,
              ⟨.reflex i, true, reflexOnRecord i { x with edge := some v } s.tickStamp⟩]) ∧
    (∀ m, let o := s.outputs.get m
      t.outputs.get m =
        if o.owner = .reflex ∧ ∃ i, begins (s.slots.get i) ∨ cut (s.slots.get i) then
          { o with claimed :=
            if ∃ i, ((t.slots.get i).state = .active ∨ (t.slots.get i).state = .holding) ∧
                (t.slots.get i).config.mask.getLsbD m.val = true then !o.safe
            else o.safe }
        else o) ∧
    t = { s with slots := t.slots, outputs := t.outputs, claims := t.claims, errFlags := t.errFlags } ∧
    (∀ k : Fin 7, k ≠ 5 → t.errFlags.getLsbD k.val = s.errFlags.getLsbD k.val) ∧
    (t.errFlags.getLsbD 5 = true ↔ s.errFlags.getLsbD 5 = true ∨ ∃ i m,
      begins (s.slots.get i) ∧ (s.slots.get i).config.mask.getLsbD m.val = true ∧
        (s.outputs.get m).owner ≠ .reflex)

/-- DELAY_RUNS_OUT and WIDTH_RUNS_OUT (R110, R111, R115, R116). A DELAYING slot whose delay has run out
asserts; an ACTIVE slot whose width has run out completes its pulse, counts it and goes to DISARMED at its
count limit and to ARMED otherwise. The output lines are re-evaluated (R93): a line that REFLEX owns takes its
safe value, inverted exactly when a slot that asserts covers it, every other line is left as it was, and
nothing else changes. With report yes a record is offered. Where nothing has run out nothing happens (assumption log 1), nor while the Timebase is STOPPED
(R1). -/
def Obligations.DelayAndWidthRunOut : Prop :=
  ∀ (i : SlotNo) (s : State),
    let x := s.slots.get i
    let offered (r : Record) : List Claim :=
      if x.config.report then insertClaim ⟨.reflex i, true, r⟩ s.claims else s.claims
    (∀ n, let o := s.outputs.get n
      s.reevaluate.outputs.get n =
        if o.owner = .reflex then
          { o with claimed :=
            if ∃ k, ((s.slots.get k).state = .active ∨ (s.slots.get k).state = .holding) ∧
                (s.slots.get k).config.mask.getLsbD n.val = true then !o.safe
            else o.safe }
        else o) ∧
    s.reevaluate = { s with outputs := s.reevaluate.outputs } ∧
    (s.tb.state = .stopped →
      exec (.delayRunsOut i) s = .next s ∧ exec (.widthRunsOut i) s = .next s) ∧
    (¬(x.state = .delaying ∧ x.timer = some 0) → exec (.delayRunsOut i) s = .next s) ∧
    (s.tb.state ≠ .stopped → x.state = .delaying → x.timer = some 0 →
      let y : Slot :=
        if x.config.width = 0 then { x with state := .holding, timer := none }
        else { x with state := .active, timer := some x.config.width.toNat }
      exec (.delayRunsOut i) s = .next { ({ s with slots := s.slots.set i y } : State).reevaluate with
        claims := offered (reflexOnRecord i x s.tickStamp)
        errFlags :=
          if ∃ m : OutNo, x.config.mask.getLsbD m.val = true ∧ (s.outputs.get m).owner ≠ .reflex then
            s.errFlags ||| 0x20
          else s.errFlags }) ∧
    (¬(x.state = .active ∧ x.timer = some 0) → exec (.widthRunsOut i) s = .next s) ∧
    (s.tb.state ≠ .stopped → x.state = .active → x.timer = some 0 →
      let fired := min (x.firings.toNat + 1) 65535
      let y : Slot := { x with
        firings := BitVec.ofNat 16 fired, timer := none
        state :=
          if x.config.countLimit ≠ 0 ∧ fired = x.config.countLimit.toNat then .disarmed else .armed }
      exec (.widthRunsOut i) s = .next { ({ s with slots := s.slots.set i y } : State).reevaluate with
        claims := offered (reflexOffRecord i x .ended s.tickStamp) })

/-- ARM, CLEAR and DISARM (R118 to R120, R116). ARM is refused with MODE in CONFIG mode and with BUSY unless
the slot is DISARMED. CLEAR completes the pulse of a HOLDING slot and is refused with BUSY in every other
state. DISARM is accepted in every state: an asserting slot is released with a record, any other makes
none; the firings done is kept. The output lines are re-evaluated as DelayAndWidthRunOut says. -/
def Obligations.SlotCommands : Prop :=
  ∀ (i : SlotNo) (s : State), s.inReset = false →
    let u := s.settled
    let x := s.slots.get i
    let offered (r : Record) : List Claim :=
      if x.config.report then insertClaim ⟨.reflex i, false, r⟩ u.claims else u.claims
    let released := s.slots.set i { x with state := .disarmed, timer := none }
    (s.mode = .config → exec (.arm i) s = .next (u.refuse .mode 0x58)) ∧
    (s.mode = .run → x.state ≠ .disarmed → exec (.arm i) s = .next (u.refuse .busy 0x58)) ∧
    (s.mode = .run → x.state = .disarmed → exec (.arm i) s = .next { u with
      slots := s.slots.set i { x with state := .armed, firings := 0 } }) ∧
    (x.state ≠ .holding → exec (.clear i) s = .next (u.refuse .busy 0x58)) ∧
    (x.state = .holding →
      let fired := min (x.firings.toNat + 1) 65535
      let y : Slot := { x with
        firings := BitVec.ofNat 16 fired, timer := none
        state :=
          if x.config.countLimit ≠ 0 ∧ fired = x.config.countLimit.toNat then .disarmed else .armed }
      exec (.clear i) s = .next { ({ u with slots := s.slots.set i y } : State).reevaluate with
        claims := offered (reflexOffRecord i x .cleared s.eventStamp) }) ∧
    (x.state ≠ .active → x.state ≠ .holding → exec (.disarm i) s = .next { u with slots := released }) ∧
    (x.state = .active ∨ x.state = .holding →
      exec (.disarm i) s = .next { ({ u with slots := released } : State).reevaluate with
        claims := offered (reflexOffRecord i x .disarmed s.eventStamp) })

/-- RFXST (R126): the state of slot i in the four-bit field (i mod 4) of word i div 4. INLVL and INSUP (R44):
line n in bit (n mod 16) of word n div 16, its qualified level, which is 0 for an OFF or IDLE line and for a
LIVE line whose level is not established, and whether it is SUPPRESSED. Writes to all of them are refused
with READONLY. -/
def Obligations.SlotStatesAreShown : Prop :=
  ∀ s : State, s.inReset = false →
    (∀ i : SlotNo,
      ((s.readAddr (BitVec.ofNat 8 (0x59 + i.val / 4))).extractLsb' (4 * (i.val % 4)) 4).toNat =
        match (s.slots.get i).state with
        | .disarmed => 0 | .armed => 1 | .delaying => 2 | .active => 3 | .holding => 4) ∧
    (∀ n : LineNo,
      (s.readAddr (BitVec.ofNat 8 (0x40 + n.val / 16))).getLsbD (n.val % 16) = (s.lines.get n).level ∧
      (LineSafe (s.lines.get n) → (s.lines.get n).state = .off ∨ (s.lines.get n).state = .idle ∨
        (s.lines.get n).established = false → (s.lines.get n).level = false) ∧
      ((s.readAddr (BitVec.ofNat 8 (0x44 + n.val / 16))).getLsbD (n.val % 16) = true ↔
        (s.lines.get n).state = .suppressed)) ∧
    (∀ (w : Word) (k : Fin 4),
      exec (.registerWrite (BitVec.ofNat 8 (0x59 + k)) w) s =
        .next (s.settled.refuse .readonly (BitVec.ofNat 8 (0x59 + k)))) ∧
    ∀ (w : Word) (k : Fin 8),
      exec (.registerWrite (BitVec.ofNat 8 (0x40 + k)) w) s =
        .next (s.settled.refuse .readonly (BitVec.ofNat 8 (0x40 + k)))

/-! ### Record Pool and Delivery Unit -/

/-- The order of keys (R57) and the place of a new record (R59). Of two keys exactly one is smaller unless
their timestamps compare as equal and their sources are equal. A new record is placed behind every record
that is presented or of an earlier run, directly ahead of records with larger keys only, and directly behind
a record whose key is not larger. -/
def Obligations.RecordsArePlacedByKey : Prop :=
  (∀ a b : Key, let d := (b.time - a.time).toNat
    (a.lt b = true ↔ (1 ≤ d ∧ d ≤ 2 ^ 47 - 1) ∨
      ((d = 0 ∨ d = 2 ^ 47) ∧ a.source.toNat < b.source.toNat)) ∧
    (a.lt b = true → b.lt a = false) ∧
    (a.lt b = false → b.lt a = false → (d = 0 ∨ d = 2 ^ 47) ∧ a.source = b.source)) ∧
  ∀ (q : Queue) (presented : Bool) (r : Record),
    let fixed := max q.runStart (if presented then 1 else 0)
    ∃ ahead behind, q.records.drop fixed = ahead ++ behind ∧
      q.place presented r = q.records.take fixed ++ ahead ++ r :: behind ∧
      (∀ x ∈ behind, r.key.lt x.key = true) ∧
      ∀ x, ahead.getLast? = some x → r.key.lt x.key = false

/-- CLAIM where the record is admitted (R54 to R56, R60, R68, R70): the queue is below its limit, and below
its reserve or with a slot to spare beyond the unused reserves of the others. The record takes the
pending-loss count as its gap, LATE by the high-water key, and its place; on an EMPTY group with delivery
enabled it is presented at once. With no claim waiting nothing happens (assumption log 1). -/
def Obligations.ClaimIsAdmitted : Prop :=
  ∀ s : State, (s.claims = [] → exec .claim s = .next s) ∧
    ∀ (c : Claim) (cs : List Claim), s.claims = c :: cs →
      let g := c.source.queue
      let q := s.queues.get g
      let x := s.groups.get g
      let r : Record := { c.record with
        gap := q.pendingLoss
        flags := { c.record.flags with
          late := match q.highWater with | none => false | some k => c.record.key.lt k } }
      (∀ n, c.source = .input n → g.val = n.val / 8) ∧
      ((∀ n, c.source ≠ .input n) → g = 8) ∧
      (q.records.length < q.quota.limit.toNat →
        q.records.length < q.quota.reserve.toNat ∨ s.unusedByOthers g < s.freeSlots →
        (q.records ≠ [] ∨ x.deliver = false →
          exec .claim s = .next { s with
            claims := cs
            queues := s.queues.set g { q with
              records := q.place x.presented.isSome r, pendingLoss := 0 } }) ∧
        (q.records = [] → x.deliver = true →
          exec .claim s = .next { s with
            claims := cs
            queues := s.queues.set g { q with
              records := [{ r with seq := x.nextSeq }], pendingLoss := 0
              highWater := if q.runStart = 0 then some r.key else q.highWater }
            groups := s.groups.set g { x with
              nextSeq := if x.nextSeq = 0xFFFF then 1 else x.nextSeq + 1
              presented := some x.nextSeq
              ageTimer := if q.quota.age = 0 then none else some q.quota.age.toNat
              ageMark := false } }))

/-- CLAIM where the record overflows (R61 to R63). Under DROP_NEW, and under DROP_OLDEST with no undelivered
record, the new record is discarded and the pending-loss count rises. Under DROP_OLDEST with a candidate,
the older of the two is discarded and its loss is added to a gap. LOSS is set in every case. -/
def Obligations.ClaimOverflows : Prop :=
  ∀ (s : State) (c : Claim) (cs : List Claim), s.claims = c :: cs →
    let g := c.source.queue
    let q := s.queues.get g
    let shown := (s.groups.get g).presented.isSome
    let i := if shown then 1 else 0
    let r : Record := { c.record with
      gap := q.pendingLoss
      flags := { c.record.flags with
        late := match q.highWater with | none => false | some k => c.record.key.lt k } }
    let lost (q' : Queue) : State := { s with
      claims := cs, queues := s.queues.set g q', errFlags := s.errFlags ||| 0x04 }
    ¬(q.records.length < q.quota.limit.toNat ∧
        (q.records.length < q.quota.reserve.toNat ∨ s.unusedByOthers g < s.freeSlots)) →
    (q.quota.policy = .dropNew ∨ q.records[i]? = none →
      exec .claim s = .next (lost { q with
        pendingLoss := BitVec.ofNat 8 (min (q.pendingLoss.toNat + 1) 255) })) ∧
    ∀ old, q.quota.policy = .dropOldest → q.records[i]? = some old →
      (q.runStart ≤ i → c.record.key.lt old.key = true →
        exec .claim s = .next (lost { q with
          records := q.records.set i { old with
            gap := BitVec.ofNat 8 (min (old.gap.toNat + 1) 255) } })) ∧
      (i < q.runStart ∨ c.record.key.lt old.key = false →
        let kept : Queue := { q with
          records := q.records.eraseIdx i
          runStart := if i < q.runStart then q.runStart - 1 else q.runStart }
        exec .claim s = .next (lost { kept with
          records := (kept.place shown r).modify i fun z =>
            { z with gap := BitVec.ofNat 8 (min (z.gap.toNat + (old.gap.toNat + 1)) 255) }
          pendingLoss := 0 }))

/-- ACKNOWLEDGE (R64, R73 to R75). One that matches frees the presented record, and with records left and
delivery enabled presents the next under the next sequence number; any other sets STALE and changes nothing
else. FLUSH (R65, R76, R77): a group number above 8 is refused with RANGE; every record of the group's queue
is freed and its pending-loss count, run start and high-water key are cleared. A flush of a group already
EMPTY changes nothing, its pending-loss count and high-water key included, which is the model's reading
(assumption log 23). AGE_TIMER_RUNS_OUT (R80): the mark is set; where no timer has run out, or while the
Timebase is STOPPED (R1), it changes nothing, which is the model's choice for a command that is not due
(assumption log 1). ACKg (R73) reads the presented sequence, and 0 where nothing is presented. -/
def Obligations.AcknowledgeFlushAndAgeTimer : Prop :=
  (∀ (g : GroupNo) (w : Word) (s : State), s.inReset = false →
    let u := s.settled
    let q := u.queues.get g
    let x := u.groups.get g
    (x.presented ≠ some w →
      exec (.acknowledge g w) s = .next { u with errFlags := u.errFlags ||| 0x02 }) ∧
    (x.presented = some w → q.records.tail = [] ∨ x.deliver = false →
      exec (.acknowledge g w) s = .next { u with
        queues := u.queues.set g { q with records := q.records.tail, runStart := q.runStart - 1 }
        groups := u.groups.set g { x with presented := none, ageTimer := none, ageMark := false } }) ∧
    (8 < w.toNat → exec (.flush w) s = .next (u.refuse .range 0x19)) ∧
    (w.toNat = g.val → x.presented ≠ none ∨ q.records ≠ [] →
      exec (.flush w) s = .next { u with
        queues := u.queues.set g { q with
          records := [], runStart := 0, highWater := none, pendingLoss := 0 }
        groups := u.groups.set g { x with presented := none, ageTimer := none, ageMark := false } }) ∧
    (w.toNat = g.val → x.presented = none → q.records = [] → exec (.flush w) s = .next u) ∧
    ∀ r rs, x.presented = some w → q.records.tail = r :: rs → x.deliver = true →
      exec (.acknowledge g w) s = .next { u with
        queues := u.queues.set g { q with
          records := { r with seq := x.nextSeq } :: rs, runStart := q.runStart - 1
          highWater := if q.runStart ≤ 1 then some r.key else q.highWater }
        groups := u.groups.set g { x with
          nextSeq := if x.nextSeq = 0xFFFF then 1 else x.nextSeq + 1
          presented := some x.nextSeq
          ageTimer := if q.quota.age = 0 then none else some q.quota.age.toNat
          ageMark := false } }) ∧
  ∀ (g : GroupNo) (s : State),
    (s.tb.state ≠ .stopped → (s.groups.get g).ageTimer = some 0 →
      exec (.ageTimerRunsOut g) s = .next { s with
        groups := s.groups.set g { s.groups.get g with ageTimer := none, ageMark := true } }) ∧
    (s.tb.state = .stopped ∨ (s.groups.get g).ageTimer ≠ some 0 →
      exec (.ageTimerRunsOut g) s = .next s) ∧
    (s.inReset = false → s.readAddr (BitVec.ofNat 8 (0x10 + g)) =
      match (s.settled.groups.get g).presented with | none => 0 | some w => w)

/-- DELEN_WRITE (R71), group by group: a group whose enable does not change is not affected; a group that is
enabled while WAITING has its head presented; any other takes its enable and nothing else. DELEN reads the enables
in bits 8:0. -/
def Obligations.DeliveryEnablesAreWritten : Prop :=
  ∀ (w : Word) (s : State), s.inReset = false →
    (∀ i : Fin 16, (s.readAddr 0x1A).getLsbD i.val =
      if h : i.val < 9 then (s.groups.get ⟨i.val, h⟩).deliver else false) ∧
    ∃ qs gs, exec (.delenWrite w) s = .next { s.settled with queues := qs, groups := gs } ∧
      ∀ g, let q := s.settled.queues.get g
        let x := s.settled.groups.get g
        let on := w.getLsbD g.val
        (x.deliver = on → qs.get g = q ∧ gs.get g = x) ∧
        (x.deliver ≠ on → on = false ∨ x.presented ≠ none ∨ q.records = [] →
          qs.get g = q ∧ gs.get g = { x with deliver := on }) ∧
        ∀ r rs, x.deliver ≠ on → on = true → x.presented = none → q.records = r :: rs →
          qs.get g = { q with
            records := { r with seq := x.nextSeq } :: rs
            highWater := if q.runStart = 0 then some r.key else q.highWater } ∧
          gs.get g = { x with
            deliver := true
            nextSeq := if x.nextSeq = 0xFFFF then 1 else x.nextSeq + 1
            presented := some x.nextSeq
            ageTimer := if q.quota.age = 0 then none else some q.quota.age.toNat
            ageMark := false }

/-- Attention, NEXT and IRQn (R79, R82 to R84, R184): a group has attention while it is PRESENTED and its
queue has reached the threshold, its presented record is URGENT, or its age has run out; NEXT is the lowest
group with attention and its enable, or 15; IRQn is asserted while some group has both, or some error flag
and its enable are set. GATTN, GPRES and GSTATg show the attention, whether a group is PRESENTED, and its
delivery state with the count of its queue. A read finds the claims of happenings that are not ticks taken
(R55), and IRQn follows the state as it stands. -/
def Obligations.InterruptLineFollowsItsRequests : Prop :=
  ∀ s : State, s.inReset = false →
    let u := s.settled
    let attention (t : State) (g : GroupNo) : Prop :=
      ∃ w r rs, (t.groups.get g).presented = some w ∧ (t.queues.get g).records = r :: rs ∧
        ((t.queues.get g).quota.threshold.toNat ≤ rs.length + 1 ∨ r.flags.urgent = true ∨
          (t.groups.get g).ageMark = true)
    let asks (t : State) (g : GroupNo) : Prop := attention t g ∧ (t.groups.get g).irqEnable = true
    (∀ g, (s.readAddr 0x1C).getLsbD g.val = true ↔ attention u g) ∧
    ((∀ g, ¬asks u g) → s.readAddr 0x06 = 15) ∧
    (∀ g, asks u g → (∀ h, h < g → ¬asks u h) → (s.readAddr 0x06).toNat = g.val) ∧
    (s.irqAsserted = true ↔ (∃ g, asks s g) ∨
      ∃ i : Fin 7, s.errFlags.getLsbD i.val = true ∧ s.errEnable.getLsbD i.val = true) ∧
    (∀ i : Fin 16, (s.readAddr 0x1D).getLsbD i.val =
      if h : i.val < 9 then (u.groups.get ⟨i.val, h⟩).presented.isSome else false) ∧
    ∀ g : GroupNo, (s.readAddr (BitVec.ofNat 8 (0x20 + g))).toNat =
      16384 * (if (u.groups.get g).presented ≠ none then 2
        else if (u.queues.get g).records = [] then 0 else 1) + (u.queues.get g).records.length % 1024

/-! ### Output Stage -/

/-- The driven value and the pin of every output line (R89): the claimed value while RUNNING and the safe
value while FROZEN; the pin carries it while the drive enable is on and is high-impedance while it is off.
OUTDRV and OUTCLM (R90) show the driven and the claimed values. -/
def Obligations.PinsFollowTheFreezeState : Prop :=
  ∀ (s : State) (n : OutNo), s.inReset = false →
    let o := s.outputs.get n
    let value := if s.causes.pin || s.causes.command || s.causes.holdover then o.safe else o.claimed
    s.driven n = value ∧
    (o.drive = true → s.pin n = some value) ∧ (o.drive = false → s.pin n = none) ∧
    (s.readAddr (BitVec.ofNat 8 (0x48 + n.val / 16))).getLsbD (n.val % 16) = value ∧
    (s.readAddr (BitVec.ofNat 8 (0x4A + n.val / 16))).getLsbD (n.val % 16) = o.claimed

/-- HOSTSET and HOSTCLR (R91): every line of the word's bits that HOST owns takes the value asked, every
other line is left as it is, and BLOCKED is set when the word covers a line that HOST does not own. Both
registers read as 0. -/
def Obligations.HostClaimsItsLines : Prop :=
  ∀ (half : Fin 2) (w : Word) (s : State), s.inReset = false →
    let covered (n : OutNo) : Prop := n.val / 16 = half.val ∧ w.getLsbD (n.val % 16) = true
    let flags := if ∃ n, covered n ∧ (s.outputs.get n).owner ≠ .host then
        s.settled.errFlags ||| 0x20 else s.settled.errFlags
    let claimed (v : Bool) (os : Bank OutLine 32) : Prop :=
      ∀ n, os.get n = if covered n ∧ (s.outputs.get n).owner = .host then
        { s.outputs.get n with claimed := v } else s.outputs.get n
    (∃ os, claimed true os ∧
      exec (.hostset half w) s = .next { s.settled with outputs := os, errFlags := flags }) ∧
    (∃ os, claimed false os ∧
      exec (.hostclr half w) s = .next { s.settled with outputs := os, errFlags := flags }) ∧
    s.readAddr (BitVec.ofNat 8 (0x4C + half)) = 0 ∧ s.readAddr (BitVec.ofNat 8 (0x4E + half)) = 0

/-- FRZN_FALL, FRZN_RISE, FREEZE and UNFREEZE (R96 to R98, R100, R101). A cause added while RUNNING freezes
the stage, offers an ENTER record that names it and sets FROZEN; added while FROZEN it joins the set.
UNFREEZE is refused with BUSY while FRZn is low; otherwise it clears every cause and offers a RELEASE record
that names them, or does nothing while RUNNING. No other state changes: not the claimed values. The records
take the stamp of R50: while STOPPED the held time value, the current epoch and UNSYNC (assumption log 10),
and otherwise those of the most recent tick. FRZCTL reads FROZEN, the causes and the FRZn level. While the
part is held in reset FRZn changes its level only, the model's choice (assumption log 16). -/
def Obligations.FreezeAndRelease : Prop :=
  (∀ s : State, s.inReset = true →
    exec .frznFall s = .next { s with frzn := false } ∧ exec .frznRise s = .next { s with frzn := true }) ∧
  ∀ s : State, s.inReset = false →
    let u := s.settled
    let st : Stamp := if s.tb.state = .stopped then ⟨s.tb.counter, s.tb.epoch, true⟩
      else ⟨s.tb.tickTime, s.tb.tickEpoch, decide (s.tb.tickState ≠ .locked)⟩
    let running := s.causes = {}
    (s.frzn = false → exec .frznFall s = .next s) ∧
    (s.frzn = true → running → exec .frznFall s = .next { s with
      frzn := false, causes := { pin := true }, errFlags := s.errFlags ||| 0x40
      claims := insertClaim ⟨.output, false, freezeRecord false { pin := true } st⟩ s.claims }) ∧
    (s.frzn = true → ¬running → exec .frznFall s = .next { s with
      frzn := false, causes := { s.causes with pin := true } }) ∧
    exec .frznRise s = .next { s with frzn := true } ∧
    (running → exec .freeze s = .next { u with
      causes := { command := true }, errFlags := u.errFlags ||| 0x40
      claims := insertClaim ⟨.output, false, freezeRecord false { command := true } st⟩ u.claims }) ∧
    (¬running → exec .freeze s = .next { u with causes := { s.causes with command := true } }) ∧
    (s.frzn = false → exec .unfreeze s = .next (u.refuse .busy 0x50)) ∧
    (s.frzn = true → running → exec .unfreeze s = .next u) ∧
    (s.frzn = true → ¬running → exec .unfreeze s = .next { u with
      causes := {}
      claims := insertClaim ⟨.output, false, freezeRecord true s.causes st⟩ u.claims }) ∧
    (s.readAddr 0x50).toNat = (if s.causes ≠ {} then 16 else 0) + (if s.causes.pin then 32 else 0) +
      (if s.causes.command then 64 else 0) + (if s.causes.holdover then 128 else 0) +
      (if s.frzn then 256 else 0)


/-! ### Schedule Unit -/

/-- FIRING (R130, R132 to R134, R136, R139, R145, R92). An entry that enters the active list keeps every entry
of it: it stands behind those that are reached or are due no later, directly ahead of one that is due later. A fired entry claims its lines, is dealt with by its repeat,
re-enters where it goes on, and reports; an entry skipped as late makes no claim, counts its due time into
the catch-up count, and reports LATE and SKIPPED. The head fires where it is reached at a tick; with the head
ahead, with no entry, or while the Timebase is STOPPED (R145), nothing happens (assumption log 1). -/
def Obligations.HeadFiresWhenReached : Prop :=
  (∀ (now : Time) (a : Active) (xs : List Active), ∃ ahead behind, xs = ahead ++ behind ∧
    insertActive now a xs = ahead ++ a :: behind ∧
    (∀ x ∈ ahead, reached now x.entry.due = true ∨
      distance now x.entry.due ≤ distance now a.entry.due) ∧
    ∀ x, behind.head? = some x → reached now x.entry.due = false ∧
      distance now a.entry.due < distance now x.entry.due) ∧
  (∀ (now : Time) (e : Entry), e.afterDue now = match e.rep with
    | none => (0, none)
    | some r =>
      if r.count = 1 then (0, none)
      else
        let c := catchUp now (e.due + r.period.zeroExtend 48)
          { r with count := if r.count = 0 then 0 else r.count - 1 }
        (c.1, c.2.map fun y => { e with due := y.1, rep := some y.2 })) ∧
  (∀ (s : State) (e : Entry) (late atTick : Bool) (st : Stamp),
    let covered (n : OutNo) : Prop := e.mask.getLsbD n.val = true
    let blocked := ∃ n, covered n ∧ (s.outputs.get n).owner ≠ .schedule
    let after := e.afterDue s.tb.counter
    let detail := actionDetail after.1 late false (decide blocked) s.frozen (decide (after.2 = none))
    ∃ os : Bank OutLine 32,
      (∀ n, os.get n = if covered n ∧ (s.outputs.get n).owner = .schedule then
          { s.outputs.get n with claimed := match e.action with
            | .set => true
            | .clear => false
            | .toggle => !(s.outputs.get n).claimed
            | .write v => v.getLsbD n.val }
        else s.outputs.get n) ∧
      s.fireEntry e late atTick st = { s with
        outputs := os
        errFlags := if blocked then s.errFlags ||| 0x20 else s.errFlags
        sched := match after.2 with
          | none => s.sched
          | some e' => { s.sched with
            active := insertActive s.tb.counter ⟨e', s.sched.nextOrder⟩ s.sched.active
            nextOrder := s.sched.nextOrder + 1 }
        claims := if e.report then insertClaim ⟨.schedule, atTick, actionRecord e detail st⟩ s.claims
          else s.claims }) ∧
  (∀ (s : State) (e : Entry) (st : Stamp),
    let after := e.afterDue s.tb.counter
    let detail := actionDetail (after.1 + 1) true true false false (decide (after.2 = none))
    s.skipEntry e st = { s with
      sched := match after.2 with
        | none => s.sched
        | some e' => { s.sched with
          active := insertActive s.tb.counter ⟨e', s.sched.nextOrder⟩ s.sched.active
          nextOrder := s.sched.nextOrder + 1 }
      claims := if e.report then insertClaim ⟨.schedule, true, actionRecord e detail st⟩ s.claims
        else s.claims }) ∧
  ∀ s : State,
    (s.sched.active = [] → exec .firing s = .next s) ∧
    (s.tb.state = .stopped → exec .firing s = .next s) ∧
    ∀ (a : Active) (rest : List Active), s.sched.active = a :: rest →
      (reached s.tb.counter a.entry.due = false → exec .firing s = .next s) ∧
      (s.tb.state ≠ .stopped → reached s.tb.counter a.entry.due = true → exec .firing s =
        .next (({ s with sched := { s.sched with active := rest } } : State).fireEntry a.entry false true
          ⟨s.tb.tickTime, s.tb.tickEpoch, decide (s.tb.tickState ≠ .locked)⟩))

/-- The model's computed catch-up is the rule's repetition (R134), and where the entry goes on after a skip
its due time is ahead by at most its period. -/
def Obligations.CatchUpFollowsTheRule : Prop :=
  ∀ (now due : Time) (r : Rep), r.period ≠ 0 →
    (∀ n, 2 ^ 47 ≤ n → catchUp now due r = catchUpByRule now n due r) ∧
    ∀ due' r', reached now due = true → (catchUp now due r).2 = some (due', r') →
      reached now due' = false ∧ distance now due' ≤ r.period.toNat ∧ r'.period = r.period

/-- APPEND, CANCEL, CLEAR_ALL and DISCARD (R149, R151 to R153, R195, R198). An append is refused with BUSY
unless the commit is OPEN, with FULL at 64 operations and with RANGE where a field is out of range; accepted,
it puts one operation behind the others and changes nothing else. The fields out of range are a tag of 0, an
action code above 3, a mask of 0, a late policy code above 1, and a period of 0 with repeat present. DISCARD
empties the list. -/
def Obligations.StagingCommands : Prop :=
  ∀ s : State, s.inReset = false →
    let u := s.settled
    let x := s.sched
    let word (j : Fin 16) : Nat := (s.tdata.get j).toNat
    let appends (c : Instr) (a : Addr) (inRange : Prop) (op : StagedOp → Prop) : Prop :=
      (x.commit ≠ .open_ → exec c s = .next (u.refuse .busy a)) ∧
      (x.commit = .open_ → 64 ≤ x.staging.length → exec c s = .next (u.refuse .full a)) ∧
      (x.commit = .open_ → x.staging.length < 64 → ¬inRange → exec c s = .next (u.refuse .range a)) ∧
      (x.commit = .open_ → x.staging.length < 64 → inRange → ∃ o, op o ∧
        exec c s = .next { u with sched := { x with staging := x.staging ++ [o] } })
    let repeats := word 4 / 16 % 2 = 1
    appends .cancel 0x60 (x.sarg ≠ 0) (fun o => o = .cancel x.sarg) ∧
    appends .clearAll 0x60 True (fun o => o = .clearAll) ∧
    (s.tsel = .stage → appends .append 0x72
      (word 3 ≠ 0 ∧ word 4 % 8 ≤ 3 ∧ (word 5 ≠ 0 ∨ word 6 ≠ 0) ∧ word 4 / 64 % 4 ≤ 1 ∧
        (repeats → word 9 ≠ 0 ∨ word 10 ≠ 0))
      (fun o => ∃ e, o = .insert e ∧
        e.due.toNat = word 0 + 65536 * word 1 + 4294967296 * word 2 ∧ e.tag.toNat = word 3 ∧
        (match e.action with
          | .set => word 4 % 8 = 0
          | .clear => word 4 % 8 = 1
          | .toggle => word 4 % 8 = 2
          | .write v => word 4 % 8 = 3 ∧ v.toNat = word 7 + 65536 * word 8) ∧
        e.mask.toNat = word 5 + 65536 * word 6 ∧
        (match e.rep with
          | none => ¬repeats
          | some r => repeats ∧ r.period.toNat = word 9 + 65536 * word 10 ∧ r.count.toNat = word 11) ∧
        e.report = decide (word 4 / 32 % 2 = 1) ∧
        e.late = (if word 4 / 64 % 4 = 1 then .skip else .fire))) ∧
    (s.tsel = .sched → exec .append s = .next (u.refuse .readonly 0x72)) ∧
    (s.tsel = .line ∨ s.tsel = .reflex ∨ s.tsel = .output ∨ s.tsel = .quota →
      exec .append s = .next (u.refuse .range 0x72)) ∧
    (x.commit = .open_ → exec .discard s = .next { u with sched := { x with staging := [] } }) ∧
    (x.commit ≠ .open_ → exec .discard s = .next (u.refuse .busy 0x60))

/-- COMMIT_NOW, COMMIT_AT, ABORT, COMMIT_TIME_REACHED, APPLICATION_FINISH and a write of CAT (R154 to R157,
R164, R165). A batch starts with its progress and counts at 0, and an empty one finishes at once. The finish
empties the staging list, opens the commit, offers the COMMIT record and sets COMMIT where an operation was
refused. Where no commit time or finish is due nothing happens (assumption log 1, 15), and no commit time is
reached while the Timebase is STOPPED. The COMMIT record takes the stamp of R50 (assumption log 10).
That the counts of the batch stay as they are after its finish is the model's choice (assumption log 31). SSTAT
(R166), SCOUNT (R143) and CAT read as they stand. -/
def Obligations.CommitCommands : Prop :=
  ∀ s : State,
    let u := s.settled
    let x := s.sched
    let st : Stamp := if s.tb.state = .stopped then ⟨s.tb.counter, s.tb.epoch, true⟩
      else ⟨s.tb.tickTime, s.tb.tickEpoch, decide (s.tb.tickState ≠ .locked)⟩
    let fresh : Schedule :=
      { x with progress := 0, applied := 0, removed := 0, refused := 0, firstRefusal := none }
    let starts (c : Instr) (b : State) : Prop :=
      (x.staging ≠ [] → exec c s = .next { b with sched := { fresh with commit := .applying } }) ∧
      (x.staging = [] → exec c s = .next { b with
        sched := { fresh with commit := .open_ }
        claims := insertClaim ⟨.schedule, false, commitRecord fresh st⟩ b.claims })
    (s.inReset = false →
      (s.readAddr 0x62).toNat =
        (match x.commit with | .open_ => 0 | .armed => 1 | .applying => 2) +
        4 * (x.staging.length % 128) + 512 * (x.progress % 128) ∧
      (s.readAddr 0x63).toNat = x.active.length % 65536 ∧
      (s.readAddr 0x66 ++ s.readAddr 0x65 ++ s.readAddr 0x64 : BitVec 48) = x.cat ∧
      (x.commit = .open_ → starts .commitNow u) ∧
      (x.commit ≠ .open_ → exec .commitNow s = .next (u.refuse .busy 0x60)) ∧
      (x.commit = .open_ → reached s.tb.counter x.cat = true → starts .commitAt u) ∧
      (x.commit = .open_ → reached s.tb.counter x.cat = false →
        exec .commitAt s = .next { u with sched := { x with commit := .armed } }) ∧
      (x.commit ≠ .open_ → exec .commitAt s = .next (u.refuse .busy 0x60)) ∧
      (x.commit = .armed → exec .abort s = .next { u with sched := { x with commit := .open_ } }) ∧
      (x.commit ≠ .armed → exec .abort s = .next (u.refuse .busy 0x60)) ∧
      ∀ (i : Fin 3) (w : Word),
        (x.commit ≠ .open_ → exec (.registerWrite (BitVec.ofNat 8 (0x64 + i)) w) s =
          .next (u.refuse .busy (BitVec.ofNat 8 (0x64 + i)))) ∧
        (x.commit = .open_ → ∃ v : Time,
          (∀ j : Fin 3, timeWord v j = if j = i then w else timeWord x.cat j) ∧
          exec (.registerWrite (BitVec.ofNat 8 (0x64 + i)) w) s =
            .next { u with sched := { x with cat := v } })) ∧
    (s.tb.state ≠ .stopped → x.commit = .armed → reached s.tb.counter x.cat = true →
      starts .commitTimeReached s) ∧
    (s.tb.state = .stopped ∨ x.commit ≠ .armed ∨ reached s.tb.counter x.cat = false →
      exec .commitTimeReached s = .next s) ∧
    (x.commit = .applying → x.staging.length ≤ x.progress →
      exec .applicationFinish s = .next { s with
        sched := { x with staging := [], progress := 0, commit := .open_ }
        claims := insertClaim ⟨.schedule, false, commitRecord x st⟩ s.claims
        errFlags := if x.refused = 0 then s.errFlags else s.errFlags ||| 0x10 }) ∧
    (x.commit ≠ .applying ∨ x.progress < x.staging.length →
      exec .applicationFinish s = .next s)

/-- INSERT, CANCEL_OPERATION and CLEAR_ALL_OPERATION (R158 to R161, R140): the next staged operation is applied
or refused, and counted. An INSERT is judged by room, by its due time and by the horizon of 2^46 ticks;
accepted, its entry takes the place that HeadFiresWhenReached says of `insertActive`; a late one under FIRE is fired at once, as HeadFiresWhenReached says of a firing, with LATE and the stamp of R50
(assumption log 10) in its ACTION record. A CANCEL removes every entry of its tag and is refused with NOT_FOUND
where there is none. A command for another kind of operation than the next does nothing (assumption
log 29). -/
def Obligations.StagedOperationsAreApplied : Prop :=
  ∀ s : State,
    let x := s.sched
    let now := s.tb.counter
    let next := if x.commit = .applying then x.staging[x.progress]? else none
    let refused (why : OpRefusal) : Host.Outcome State Fault Refusal := .next { s with
      sched := { x with
        progress := x.progress + 1, refused := x.refused + 1
        firstRefusal := if x.refused = 0 then some (why, x.progress) else x.firstRefusal } }
    let counted : Schedule :=
      { x with progress := x.progress + 1, applied := min (x.applied + 1) 255 }
    ((∀ e, next ≠ some (.insert e)) → exec .insert s = .next s) ∧
    ((∀ tag, next ≠ some (.cancel tag)) → exec .cancelOperation s = .next s) ∧
    (next ≠ some .clearAll → exec .clearAllOperation s = .next s) ∧
    (∀ e, next = some (.insert e) →
      (256 ≤ x.active.length → exec .insert s = refused .listFull) ∧
      (x.active.length < 256 → reached now e.due = true → e.late = .skip →
        exec .insert s = refused .past) ∧
      (x.active.length < 256 → reached now e.due = false → 2 ^ 46 < distance now e.due →
        exec .insert s = refused .tooFar) ∧
      (x.active.length < 256 → reached now e.due = false → distance now e.due ≤ 2 ^ 46 →
        exec .insert s = .next { s with sched := { counted with
          active := insertActive now ⟨e, x.nextOrder⟩ x.active, nextOrder := x.nextOrder + 1 } }) ∧
      (x.active.length < 256 → reached now e.due = true → e.late = .fire →
        let st : Stamp := if s.tb.state = .stopped then ⟨s.tb.counter, s.tb.epoch, true⟩
          else ⟨s.tb.tickTime, s.tb.tickEpoch, decide (s.tb.tickState ≠ .locked)⟩
        let h := ({ s with sched := { x with nextOrder := x.nextOrder + 1 } } : State).fireEntry
          e true false st
        let t : State := { h with sched := { h.sched with
          progress := x.progress + 1, applied := min (x.applied + 1) 255 } }
        exec .insert s = .next t ∧
          (e.report = false → t.claims = s.claims) ∧
          (e.report = true → ∃ r : Record,
            t.claims = insertClaim ⟨.schedule, false, r⟩ s.claims ∧
            r.kind = .action ∧ r.source = 0 ∧ r.tag = e.tag ∧ r.time = st.time ∧ r.epoch = st.epoch ∧
            r.flags = { unsync := st.unsync } ∧
            r.detail.toNat % 256 = min (e.afterDue now).1 255 ∧
            r.detail.getLsbD 8 = true ∧ r.detail.getLsbD 9 = false ∧
            (r.detail.getLsbD 10 = true ↔
              ∃ n : OutNo, e.mask.getLsbD n.val = true ∧ (s.outputs.get n).owner ≠ .schedule) ∧
            r.detail.getLsbD 11 = (s.causes.pin || s.causes.command || s.causes.holdover) ∧
            (r.detail.getLsbD 12 = true ↔ (e.afterDue now).2 = none)))) ∧
    (∀ tag, next = some (.cancel tag) →
      ((∀ a ∈ x.active, a.entry.tag ≠ tag) → exec .cancelOperation s = refused .notFound) ∧
      ((∃ a ∈ x.active, a.entry.tag = tag) → exec .cancelOperation s = .next { s with
        sched := { counted with
          active := x.active.filter fun a => a.entry.tag != tag
          removed := min (x.removed + (x.active.filter fun a => a.entry.tag == tag).length) 255 } })) ∧
    (next = some .clearAll → exec .clearAllOperation s = .next { s with
      sched := { counted with
        active := [], removed := min (x.removed + x.active.length) 255 } })

/-! ### Records, tables and the window -/

/-- The fields of the system records (R19, R49, R101, R122, R123, R136, R164, R199), read back from the bits of
their tag and detail, with UNSYNC as their one flag: by the stamp, and in every LOST (R19). And R47: "A record
offered while the Timebase is STOPPED carries UNSYNC". -/
def Obligations.SystemRecordsCarryTheirFields : Prop :=
  (∀ (x : SyncEvent) (st : Stamp), -8388608 ≤ x.error → x.error ≤ 8388607 →
    let r := syncRecord x st
    (r.detail.extractLsb' 0 8 ++ r.tag : BitVec 24).toInt = x.error ∧
    (r.detail.extractLsb' 12 3).toNat =
      (match x.code with | .step => 1 | .locked => 2 | .lost => 3 | .fault => 4) ∧
    r.kind = .sync ∧ r.source = 0 ∧ r.time = st.time ∧ r.epoch = st.epoch ∧
    r.flags = { unsync := st.unsync || decide (x.code = .lost) }) ∧
  (∀ (release : Bool) (cs : Causes) (st : Stamp), let r := freezeRecord release cs st
    r.kind = .freeze ∧ r.source = 0 ∧ r.time = st.time ∧ r.epoch = st.epoch ∧ r.tag = 0 ∧
    r.flags = { unsync := st.unsync } ∧
    ∀ i : Fin 16, r.detail.getLsbD i.val =
      ((decide (i = 0) && cs.pin) || (decide (i = 1) && cs.command) || (decide (i = 2) && cs.holdover) ||
        (decide (i = 15) && release))) ∧
  (∀ (i : SlotNo) (x : Slot) (st : Stamp) (c : EndCause),
    let on := reflexOnRecord i x st
    let off := reflexOffRecord i x c st
    on.kind = .reflexOn ∧ off.kind = .reflexOff ∧
    (∀ r ∈ [on, off], r.source.toNat = i.val ∧ r.time = st.time ∧ r.epoch = st.epoch ∧
      r.flags = { unsync := st.unsync } ∧ r.tag.toNat % 64 = x.config.trigger.val) ∧
    on.tag.toNat / 64 = (if x.edge = some true then 4 else 0) ∧ on.detail = x.firings ∧
    off.tag.toNat / 64 = 0 ∧
    off.detail.toNat = match c with
      | .ended => 1 | .cleared => 2 | .disarmed => 3 | .halted => 4 | .retriggered => 5) ∧
  (∀ (e : Entry) (n : Nat) (late skipped blocked frozen last : Bool) (st : Stamp),
    let r := actionRecord e (actionDetail n late skipped blocked frozen last) st
    r.kind = .action ∧ r.source = 0 ∧ r.time = st.time ∧ r.epoch = st.epoch ∧ r.tag = e.tag ∧
    r.flags = { unsync := st.unsync } ∧
    r.detail.toNat % 256 = min n 255 ∧ r.detail.getLsbD 8 = late ∧ r.detail.getLsbD 9 = skipped ∧
    r.detail.getLsbD 10 = blocked ∧ r.detail.getLsbD 11 = frozen ∧ r.detail.getLsbD 12 = last ∧
    r.detail.toNat / 8192 = 0) ∧
  (∀ s t : State, s.tb.state = .stopped → step s = .next t →
    ∀ c ∈ t.claims, c ∈ s.claims ∨ c.record.flags.unsync = true) ∧
  ∀ (x : Schedule) (st : Stamp), x.applied ≤ 255 → x.removed ≤ 255 → x.refused ≤ 64 →
    (∀ why i, x.firstRefusal = some (why, i) → i ≤ 63) →
    let r := commitRecord x st
    r.kind = .commit ∧ r.source = 0 ∧ r.time = st.time ∧ r.epoch = st.epoch ∧
    r.flags = { unsync := st.unsync } ∧
    r.tag.toNat = 256 * x.removed + x.applied ∧
    r.detail.toNat = x.refused + match x.firstRefusal with
      | none => 0
      | some (why, i) => 1024 * i +
        128 * (match why with | .listFull => 1 | .past => 2 | .notFound => 3 | .tooFar => 4)

/-- The window (R72, R199): while the selected group is PRESENTED its eight words show the fields of the head
of its queue; while it is not, every word reads 0. The read finds the claims of happenings that are
not ticks taken (R55). -/
def Obligations.WindowShowsThePresentedRecord : Prop :=
  ∀ s : State, s.inReset = false →
    let u := s.settled
    let win (i : Nat) : Word := s.readAddr (BitVec.ofNat 8 (0x08 + i))
    ((u.groups.get s.wsel).presented = none → ∀ i, i < 8 → win i = 0) ∧
    ∀ w r rs, (u.groups.get s.wsel).presented = some w → (u.queues.get s.wsel).records = r :: rs →
      (win 0).toNat = 256 * r.source.toNat + 16 * r.epoch.toNat + (match r.kind with
        | .edge => 1 | .level => 2 | .action => 8 | .reflexOn => 9 | .reflexOff => 10 | .commit => 11
        | .suppress => 12 | .release => 13 | .sync => 14 | .freeze => 15) ∧
      win 1 = r.seq ∧ (win 4 ++ win 3 ++ win 2 : BitVec 48) = r.time ∧
      (r.kind = .edge ∨ r.kind = .level → (win 6 ++ win 5 : BitVec 32) = r.interval) ∧
      (r.kind ≠ .edge → r.kind ≠ .level → win 5 = r.tag ∧ win 6 = r.detail) ∧
      (win 7).toNat % 256 = r.gap.toNat ∧
      (win 7).getLsbD 8 = r.flags.rise ∧ (win 7).getLsbD 9 = r.flags.first ∧
      (win 7).getLsbD 10 = r.flags.sat ∧ (win 7).getLsbD 11 = r.flags.level ∧
      (win 7).getLsbD 12 = r.flags.urgent ∧ (win 7).getLsbD 13 = r.flags.stepped ∧
      (win 7).getLsbD 14 = r.flags.unsync ∧ (win 7).getLsbD 15 = r.flags.late

/-- READ (R195, R196, Section 10.4): an index past the extent of a fixed table is refused with RANGE; otherwise
all sixteen words of the buffer take the selected entry's words, its configured fields and its status items
(a line's state, level, qualifier and last selected onset; a slot's state and firings; an output line's
claimed and driven value; a queue's count and pending-loss count), 0 beyond them and in every word past the
end of STAGE or SCHED, and nothing else changes. -/
def Obligations.TableReadFillsTheBuffer : Prop :=
  ∀ s : State, s.inReset = false →
    let i := s.tidx.toNat
    let fills (p : Bank Word 16 → Prop) : Prop :=
      ∃ b, exec .read s = .next { s.settled with tdata := b } ∧ p b
    let outside := exec .read s = .next (s.settled.refuse .range 0x72)
    let word (b : Bank Word 16) (j : Fin 16) : Nat := (b.get j).toNat
    let wide (b : Bank Word 16) (j k : Fin 16) : Nat := word b j + 65536 * word b k
    let zeroFrom (b : Bank Word 16) (k : Nat) : Prop := ∀ j : Fin 16, k ≤ j.val → b.get j = 0
    let bit (x : Bool) (k : Nat) : Nat := if x then 2 ^ k else 0
    let entry (e : Entry) (b : Bank Word 16) : Prop :=
      (b.get 2 ++ b.get 1 ++ b.get 0 : BitVec 48) = e.due ∧ b.get 3 = e.tag ∧
      word b 4 = (match e.action with | .set => 0 | .clear => 1 | .toggle => 2 | .write _ => 3) +
        bit e.rep.isSome 4 + bit e.report 5 + bit (decide (e.late = .skip)) 6 ∧
      wide b 5 6 = e.mask.toNat ∧
      wide b 7 8 = (match e.action with | .write v => v.toNat | _ => 0) ∧
      wide b 9 10 = (match e.rep with | none => 0 | some r => r.period.toNat) ∧
      word b 11 = (match e.rep with | none => 0 | some r => r.count.toNat)
    (s.tsel = .line → (64 ≤ i → outside) ∧ ∀ n : LineNo, i = n.val → fills fun b =>
      let l := s.lines.get n
      word b 0 = bit l.config.on 0 + 2 * (match l.config.edge with | .rise => 1 | .fall => 2 | .both => 3) +
        bit l.config.urgent 3 + 16 * l.config.filter.toNat + 256 * l.config.chatterLimit.toNat ∧
      wide b 1 2 = l.config.chatterWindow.toNat ∧ wide b 3 4 = l.config.quietTime.toNat ∧
      word b 5 = (match l.state with | .off => 0 | .idle => 1 | .live => 2 | .suppressed => 3) +
        bit l.level 2 + (match l.qualifier with
          | .stable => 0
          | .pending v _ k => 8 + bit v 4 + 32 * (k % 2048)) ∧
      (b.get 8 ++ b.get 7 ++ b.get 6 : BitVec 48) = l.lastOnset ∧ zeroFrom b 9) ∧
    (s.tsel = .reflex → (16 ≤ i → outside) ∧ ∀ n : SlotNo, i = n.val → fills fun b =>
      let x := s.slots.get n
      word b 0 = x.config.trigger.val +
        64 * (match x.config.edge with | .rise => 1 | .fall => 2 | .either => 3) +
        (match x.config.gate with | none => 0 | some g => 256 + 512 * g.line.val + bit g.level 15) ∧
      wide b 1 2 = x.config.delay.toNat ∧ wide b 3 4 = x.config.width.toNat ∧
      wide b 5 6 = x.config.mask.toNat ∧
      word b 7 = (match x.config.policy with | .ignore => 0 | .restart => 1 | .extend => 2) +
        bit x.config.report 2 + 256 * x.config.countLimit.toNat ∧
      word b 8 = (match x.state with
        | .disarmed => 0 | .armed => 1 | .delaying => 2 | .active => 3 | .holding => 4) ∧
      b.get 9 = x.firings ∧ zeroFrom b 10) ∧
    (s.tsel = .output → (32 ≤ i → outside) ∧ ∀ n : OutNo, i = n.val → fills fun b =>
      let o := s.outputs.get n
      let driven := if s.causes.pin || s.causes.command || s.causes.holdover then o.safe else o.claimed
      word b 0 = (match o.owner with | .host => 0 | .schedule => 1 | .reflex => 2) + bit o.safe 4 +
        bit o.drive 5 ∧
      word b 1 = bit o.claimed 0 + bit driven 1 ∧ zeroFrom b 2) ∧
    (s.tsel = .quota → (9 ≤ i → outside) ∧ ∀ g : GroupNo, i = g.val → fills fun b =>
      let q := s.settled.queues.get g
      b.get 0 = q.quota.reserve ∧ b.get 1 = q.quota.limit ∧
      word b 2 = (match q.quota.policy with | .dropNew => 0 | .dropOldest => 1) ∧
      b.get 3 = q.quota.threshold ∧ b.get 4 = q.quota.age ∧ word b 5 = q.records.length % 65536 ∧
      word b 6 = q.pendingLoss.toNat ∧ zeroFrom b 7) ∧
    (s.tsel = .stage → (s.sched.staging.length ≤ i → fills fun b => zeroFrom b 0) ∧
      ∀ o, s.sched.staging[i]? = some o → fills fun b => match o with
        | .insert e => entry e b ∧ word b 12 = 1 ∧ zeroFrom b 13
        | .cancel tag => ∀ j, b.get j = if j = 3 then tag else if j = 12 then 2 else 0
        | .clearAll => ∀ j, b.get j = if j = 12 then 3 else 0) ∧
    (s.tsel = .sched → (s.sched.active.length ≤ i → fills fun b => zeroFrom b 0) ∧
      ∀ a, s.sched.active[i]? = some a → fills fun b => entry a.entry b ∧ zeroFrom b 12)

/-- WRITE (R22 to R24, R52, R53, R88, R94, R95, R105, R197): the checks of each table in its order, the field
values out of range among them, and the effect of an accepted entry, whose fields are taken from the words
of the buffer. A line goes OFF, IDLE or LIVE by its mode field and the device mode, its working state
cleared; that an IDLE line in RUN mode, which RUN mode does not have, is BUSY as well is the model's reading
(assumption log 23). A slot takes its configuration in DISARMED only; an output line keeps its claimed value
unless R93 recomputes it; a quota is taken in CONFIG mode if the accounting of the pool holds with it. -/
def Obligations.TableWritesAreChecked : Prop :=
  ∀ s : State, s.inReset = false →
    let u := s.settled
    let i := s.tidx.toNat
    let word (j : Fin 16) : Nat := (s.tdata.get j).toNat
    let wide (j k : Fin 16) : Nat := word j + 65536 * word k
    let bit (j : Fin 16) (k : Nat) : Bool := decide (word j / 2 ^ k % 2 = 1)
    let refused (c : RefCode) : Prop := exec .write s = .next (u.refuse c 0x72)
    (s.tsel = .stage ∨ s.tsel = .sched → refused .readonly) ∧
    ((s.tsel = .line ∧ 64 ≤ i) ∨ (s.tsel = .reflex ∧ 16 ≤ i) ∨ (s.tsel = .output ∧ 32 ≤ i) ∨
      (s.tsel = .quota ∧ 9 ≤ i) → refused .range) ∧
    (∀ n : LineNo, s.tsel = .line → i = n.val →
      let l := s.lines.get n
      let on := bit 0 0
      let busy := on = true ∧ s.mode = .run ∧ l.state ≠ .off
      let inRange := word 0 / 2 % 4 ≠ 0 ∧ wide 1 2 ≠ 0 ∧ wide 1 2 ≤ 16777215 ∧ wide 3 4 ≠ 0 ∧
        wide 3 4 ≤ 16777215
      (busy → refused .busy) ∧
      (¬busy → ¬inRange → refused .range) ∧
      (¬busy → inRange → ∃ c : LineConfig,
        c.on = on ∧ (match c.edge with | .rise => 1 | .fall => 2 | .both => 3) = word 0 / 2 % 4 ∧
        c.urgent = bit 0 3 ∧ c.filter.toNat = word 0 / 16 % 16 ∧ c.chatterLimit.toNat = word 0 / 256 ∧
        c.chatterWindow.toNat = wide 1 2 ∧ c.quietTime.toNat = wide 3 4 ∧
        exec .write s = .next { u with lines := s.lines.set n { l with
          config := c, established := false, level := false, qualifier := .stable, interval := 0
          window := none, quiet := none, seen := 0
          state := if on = false then .off else if s.mode = .run then .live else .idle
          firstMark := if on && s.mode == .run then true else l.firstMark } })) ∧
    (∀ n : SlotNo, s.tsel = .reflex → i = n.val →
      let x := s.slots.get n
      let inRange := word 0 / 64 % 4 ≠ 0 ∧ wide 1 2 ≤ 16777215 ∧ wide 3 4 ≤ 16777215 ∧ word 7 % 4 ≠ 3
      (x.state ≠ .disarmed → refused .busy) ∧
      (x.state = .disarmed → ¬inRange → refused .range) ∧
      (x.state = .disarmed → inRange → ∃ c : SlotConfig,
        c.trigger.val = word 0 % 64 ∧
        (match c.edge with | .rise => 1 | .fall => 2 | .either => 3) = word 0 / 64 % 4 ∧
        (match c.gate with
          | none => bit 0 8 = false
          | some g => bit 0 8 = true ∧ g.line.val = word 0 / 512 % 64 ∧ g.level = bit 0 15) ∧
        c.delay.toNat = wide 1 2 ∧ c.width.toNat = wide 3 4 ∧ c.mask.toNat = wide 5 6 ∧
        (match c.policy with | .ignore => 0 | .restart => 1 | .extend => 2) = word 7 % 4 ∧
        c.report = bit 7 2 ∧ c.countLimit.toNat = word 7 / 256 ∧
        exec .write s = .next { u with slots := s.slots.set n { x with config := c } })) ∧
    (∀ n : OutNo, s.tsel = .output → i = n.val →
      let o := s.outputs.get n
      let inverted := ∃ k, (s.slots.get k).asserting = true ∧
        (s.slots.get k).config.mask.getLsbD n.val = true
      (word 0 % 4 = 3 → refused .range) ∧
      (word 0 % 4 ≠ 3 → ∃ owner : Owner,
        (match owner with | .host => 0 | .schedule => 1 | .reflex => 2) = word 0 % 4 ∧
        exec .write s = .next { u with outputs := s.outputs.set n {
          owner := owner, safe := bit 0 4, drive := bit 0 5
          claimed :=
            if owner = .reflex ∧ (o.owner ≠ .reflex ∨ o.safe ≠ bit 0 4) then
              (if inverted then !bit 0 4 else bit 0 4)
            else o.claimed } })) ∧
    (∀ g : GroupNo, s.tsel = .quota → i = g.val →
      let q := u.queues.get g
      let inRange := word 0 ≤ 512 ∧ (g = 8 → 8 ≤ word 0) ∧ 1 ≤ word 1 ∧ word 1 ≤ 512 ∧ word 0 ≤ word 1 ∧
        word 2 % 4 ≤ 1 ∧ 1 ≤ word 3 ∧ word 3 ≤ 64
      (s.mode = .run → refused .mode) ∧
      (s.mode = .config → ¬inRange → refused .range) ∧
      (s.mode = .config → inRange →
        let c : Quota := {
          reserve := s.tdata.get 0, limit := s.tdata.get 1
          policy := if word 2 % 4 = 0 then .dropNew else .dropOldest
          threshold := s.tdata.get 3, age := s.tdata.get 4 }
        let qs := u.queues.set g { q with quota := c }
        let breaks := 512 < (sumQueues qs fun _ x => x.quota.reserve.toNat) ∨
          c.limit.toNat < q.records.length ∨
          512 - (sumQueues qs fun _ x => x.records.length) <
            (sumQueues qs fun _ x => x.quota.reserve.toNat - x.records.length)
        (breaks → refused .quota) ∧ (¬breaks → exec .write s = .next { u with queues := qs })))

/-- What READ puts into the buffer, WRITE and APPEND take back whole (R196 to R198, Section 10.4): for every
table, the configured fields of an entry in its ranges are the fields taken from its words, whatever its
status items. The value of an action other than WRITE, and the repeat of an entry without one, are absent
both ways. -/
def Obligations.TableEntriesRoundTrip : Prop :=
  (∀ e : Entry, e.inRange → entryFields (bufferOf e.words) = some e ∧
    entryFields (bufferOf (StagedOp.insert e).words) = some e) ∧
  (∀ l : Line, l.config.chatterWindow ≠ 0 → l.config.quietTime ≠ 0 →
    lineFields (bufferOf l.words) = some l.config) ∧
  (∀ x : Slot, slotFields (bufferOf x.words) = some x.config) ∧
  (∀ (s : State) (n : OutNo), outFields (bufferOf (s.outWords n)) =
    some ⟨(s.outputs.get n).owner, (s.outputs.get n).safe, (s.outputs.get n).drive⟩) ∧
  ∀ (q : Queue) (g : GroupNo), q.quota.reserve.toNat ≤ q.quota.limit.toNat →
    1 ≤ q.quota.limit.toNat → q.quota.limit.toNat ≤ 512 → 1 ≤ q.quota.threshold.toNat →
    q.quota.threshold.toNat ≤ 64 → (g = 8 → 8 ≤ q.quota.reserve.toNat) →
    quotaFields g (bufferOf q.words) = some q.quota

/-! ### Invariants of every step -/

/-- The state after device reset meets every rule that a safe state meets. -/
def Obligations.ResetStateIsSafe : Prop :=
  TimebaseSafe State.reset.tb ∧ LinesSafe State.reset ∧ ModeSafe State.reset ∧ PoolSafe State.reset ∧
  QueuesOrdered State.reset ∧ ClaimsOrdered State.reset ∧ DeliverySafe State.reset ∧
  OutputsSafe State.reset ∧ ScheduleSafe State.reset.sched ∧ ScheduleOrdered State.reset

/-- Every step keeps the Timebase's settings in range (R7), its miss timer running in LOCKED only (R17), and
no adjustment pending while it is STOPPED (R5). -/
def Obligations.StepKeepsTheTimebaseSafe : Prop :=
  ∀ s t : State, TimebaseSafe s.tb → step s = .next t → TimebaseSafe t.tb

/-- Every step keeps every line's state and working state in agreement (R23, R24, R27, R30, R31, R39, R41),
and what the device mode says of the Timebase, the lines and the slots (R169, R171, R172, R177): in RUN the
Timebase is never STOPPED, in CONFIG no line is sampled and no slot is armed. -/
def Obligations.StepKeepsTheModeAndTheLinesSafe : Prop :=
  (∀ s t : State, LinesSafe s → step s = .next t → LinesSafe t) ∧
  ∀ s t : State, ModeSafe s → step s = .next t → ModeSafe t

/-- Every step keeps the accounting of the pool (R51, R54): "No queue ever holds more records than its
limit", and the free slots always cover the unused reserves. -/
def Obligations.StepKeepsThePoolAccounting : Prop :=
  ∀ s t : State, PoolSafe s → step s = .next t → PoolSafe t

/-- Every step keeps the undelivered records of the current run of every queue in order of key (R58, R59),
and the waiting claims in the order in which they are taken (R55). -/
def Obligations.StepKeepsTheQueuesOrdered : Prop :=
  (∀ s t : State, QueuesOrdered s → step s = .next t → QueuesOrdered t) ∧
  ∀ s t : State, ClaimsOrdered s → step s = .next t → ClaimsOrdered t

/-- Every step keeps every group sound (R67 to R69): a queue that holds records while delivery is enabled has
its head presented, under a sequence number that is not 0. -/
def Obligations.StepKeepsTheDeliverySafe : Prop :=
  ∀ s t : State, DeliverySafe s → step s = .next t → DeliverySafe t

/-- Every step keeps R93: "Each REFLEX-owned output line's claimed value is its safe value inverted exactly
when a slot covering it is ACTIVE or HOLDING". -/
def Obligations.StepKeepsTheReflexOutputs : Prop :=
  ∀ s t : State, OutputsSafe s → step s = .next t → OutputsSafe t

/-- Every step keeps the lists of the Schedule Unit in their bounds (R128, R129, R149, R166) and the active
list in the order of R130. -/
def Obligations.StepKeepsTheScheduleOrdered : Prop :=
  (∀ s t : State, ScheduleSafe s.sched → step s = .next t → ScheduleSafe t.sched) ∧
  ∀ s t : State, ScheduleSafe s.sched → ScheduleOrdered s → step s = .next t → ScheduleOrdered t
end

