-- ==== Sys2Proof/Laws/Bank.lean ====
section
/-! SUPPORT. The laws of a bank: what is read after each way of making or changing one. -/
namespace Sys2Proof.Machine

variable {α : Type} {n : Nat}

theorem Bank.get_eq_getElem (b : Bank α n) (i : Fin n) :
    b.get i = b.items[i.val]'(by rw [b.size]; exact i.isLt) := by
  simp [Bank.get]

@[simp] theorem Bank.get_set_eq (b : Bank α n) (i : Fin n) (x : α) : (b.set i x).get i = x := by
  simp [Bank.get_eq_getElem, Bank.set]

theorem Bank.get_set_ne (b : Bank α n) {i j : Fin n} (h : j ≠ i) (x : α) :
    (b.set i x).get j = b.get j := by
  have h' : ¬ i.val = j.val := fun e => h (Fin.ext e.symm)
  simp [Bank.get_eq_getElem, Bank.set, h']

/-- Reading any thing of a bank after one was replaced. -/
theorem Bank.get_set (b : Bank α n) (i j : Fin n) (x : α) :
    (b.set i x).get j = if j = i then x else b.get j := by
  split
  · next h => subst h; exact b.get_set_eq j x
  · next h => exact b.get_set_ne h x

@[simp] theorem Bank.get_ofFn (f : Fin n → α) (i : Fin n) : (Bank.ofFn f).get i = f i := by
  simp [Bank.get_eq_getElem, Bank.ofFn]

@[simp] theorem Bank.get_mapIdx (f : Fin n → α → α) (b : Bank α n) (i : Fin n) :
    (b.mapIdx f).get i = f i (b.get i) := by
  simp [Bank.mapIdx]

@[simp] theorem Bank.get_map (f : α → α) (b : Bank α n) (i : Fin n) :
    (b.map f).get i = f (b.get i) := by
  simp [Bank.map]

@[simp] theorem Bank.get_fill (x : α) (i : Fin n) : (Bank.fill x : Bank α n).get i = x := by
  simp [Bank.get_eq_getElem, Bank.fill]

/-- Two banks are equal when they agree at every number. -/
@[ext] theorem Bank.ext_get {a b : Bank α n} (h : ∀ i, a.get i = b.get i) : a = b := by
  obtain ⟨xs, hx⟩ := a
  obtain ⟨ys, hy⟩ := b
  have : xs = ys := by
    apply List.ext_getElem (by rw [hx, hy])
    intro k h1 h2
    have := h ⟨k, by rw [← hx]; exact h1⟩
    simpa [Bank.get_eq_getElem] using this
  subst this
  rfl

@[simp] theorem Bank.set_get (b : Bank α n) (i : Fin n) : b.set i (b.get i) = b := by
  ext j
  by_cases h : j = i
  · subst h; simp
  · rw [Bank.get_set_ne b h]

@[simp] theorem Bank.set_set (b : Bank α n) (i : Fin n) (x y : α) : (b.set i x).set i y = b.set i y := by
  ext j
  by_cases h : j = i
  · subst h; simp
  · rw [Bank.get_set_ne _ h, Bank.get_set_ne b h, Bank.get_set_ne b h]

/-- `anyIdx` says that some number satisfies the test. -/
theorem anyIdx_iff (p : Fin n → Bool) : anyIdx n p = true ↔ ∃ i, p i = true := by
  simp [anyIdx]

end Sys2Proof.Machine
end

