-- ==== Sys2Proof/Laws/State.lean ====
section
/-!
SUPPORT. One lemma per field per named update of State, true by rfl: reading a field after an update
that writes another field, or that writes it.
-/
namespace Sys2Proof.Machine

variable (s : State)

/-! ### setFlag -/

@[simp] theorem State.setFlag_inReset (f : ErrFlag) : (s.setFlag f).inReset = s.inReset := rfl
@[simp] theorem State.setFlag_frzn (f : ErrFlag) : (s.setFlag f).frzn = s.frzn := rfl
@[simp] theorem State.setFlag_readData (f : ErrFlag) : (s.setFlag f).readData = s.readData := rfl
@[simp] theorem State.setFlag_tb (f : ErrFlag) : (s.setFlag f).tb = s.tb := rfl
@[simp] theorem State.setFlag_lines (f : ErrFlag) : (s.setFlag f).lines = s.lines := rfl
@[simp] theorem State.setFlag_claims (f : ErrFlag) : (s.setFlag f).claims = s.claims := rfl
@[simp] theorem State.setFlag_queues (f : ErrFlag) : (s.setFlag f).queues = s.queues := rfl
@[simp] theorem State.setFlag_groups (f : ErrFlag) : (s.setFlag f).groups = s.groups := rfl
@[simp] theorem State.setFlag_wsel (f : ErrFlag) : (s.setFlag f).wsel = s.wsel := rfl
@[simp] theorem State.setFlag_outputs (f : ErrFlag) : (s.setFlag f).outputs = s.outputs := rfl
@[simp] theorem State.setFlag_causes (f : ErrFlag) : (s.setFlag f).causes = s.causes := rfl
@[simp] theorem State.setFlag_slots (f : ErrFlag) : (s.setFlag f).slots = s.slots := rfl
@[simp] theorem State.setFlag_sched (f : ErrFlag) : (s.setFlag f).sched = s.sched := rfl
@[simp] theorem State.setFlag_mode (f : ErrFlag) : (s.setFlag f).mode = s.mode := rfl
@[simp] theorem State.setFlag_errFlags (f : ErrFlag) :
    (s.setFlag f).errFlags = s.errFlags ||| f.bit := rfl
@[simp] theorem State.setFlag_errEnable (f : ErrFlag) : (s.setFlag f).errEnable = s.errEnable := rfl
@[simp] theorem State.setFlag_refCode (f : ErrFlag) : (s.setFlag f).refCode = s.refCode := rfl
@[simp] theorem State.setFlag_refAddr (f : ErrFlag) : (s.setFlag f).refAddr = s.refAddr := rfl
@[simp] theorem State.setFlag_tsel (f : ErrFlag) : (s.setFlag f).tsel = s.tsel := rfl
@[simp] theorem State.setFlag_tidx (f : ErrFlag) : (s.setFlag f).tidx = s.tidx := rfl
@[simp] theorem State.setFlag_tdata (f : ErrFlag) : (s.setFlag f).tdata = s.tdata := rfl
@[simp] theorem State.setFlag_drawn (f : ErrFlag) : (s.setFlag f).drawn = s.drawn := rfl
@[simp] theorem State.setFlag_pending (f : ErrFlag) : (s.setFlag f).pending = s.pending := rfl

/-! ### refuse -/

@[simp] theorem State.refuse_inReset (c : RefCode) (a : Addr) :
    (s.refuse c a).inReset = s.inReset := rfl
@[simp] theorem State.refuse_frzn (c : RefCode) (a : Addr) : (s.refuse c a).frzn = s.frzn := rfl
@[simp] theorem State.refuse_readData (c : RefCode) (a : Addr) :
    (s.refuse c a).readData = s.readData := rfl
@[simp] theorem State.refuse_tb (c : RefCode) (a : Addr) : (s.refuse c a).tb = s.tb := rfl
@[simp] theorem State.refuse_lines (c : RefCode) (a : Addr) : (s.refuse c a).lines = s.lines := rfl
@[simp] theorem State.refuse_claims (c : RefCode) (a : Addr) :
    (s.refuse c a).claims = s.claims := rfl
@[simp] theorem State.refuse_queues (c : RefCode) (a : Addr) :
    (s.refuse c a).queues = s.queues := rfl
@[simp] theorem State.refuse_groups (c : RefCode) (a : Addr) :
    (s.refuse c a).groups = s.groups := rfl
@[simp] theorem State.refuse_wsel (c : RefCode) (a : Addr) : (s.refuse c a).wsel = s.wsel := rfl
@[simp] theorem State.refuse_outputs (c : RefCode) (a : Addr) :
    (s.refuse c a).outputs = s.outputs := rfl
@[simp] theorem State.refuse_causes (c : RefCode) (a : Addr) :
    (s.refuse c a).causes = s.causes := rfl
@[simp] theorem State.refuse_slots (c : RefCode) (a : Addr) : (s.refuse c a).slots = s.slots := rfl
@[simp] theorem State.refuse_sched (c : RefCode) (a : Addr) : (s.refuse c a).sched = s.sched := rfl
@[simp] theorem State.refuse_mode (c : RefCode) (a : Addr) : (s.refuse c a).mode = s.mode := rfl
@[simp] theorem State.refuse_errFlags (c : RefCode) (a : Addr) :
    (s.refuse c a).errFlags = s.errFlags ||| ErrFlag.refused.bit := rfl
@[simp] theorem State.refuse_errEnable (c : RefCode) (a : Addr) :
    (s.refuse c a).errEnable = s.errEnable := rfl
@[simp] theorem State.refuse_refCode (c : RefCode) (a : Addr) :
    (s.refuse c a).refCode = some c := rfl
@[simp] theorem State.refuse_refAddr (c : RefCode) (a : Addr) : (s.refuse c a).refAddr = a := rfl
@[simp] theorem State.refuse_tsel (c : RefCode) (a : Addr) : (s.refuse c a).tsel = s.tsel := rfl
@[simp] theorem State.refuse_tidx (c : RefCode) (a : Addr) : (s.refuse c a).tidx = s.tidx := rfl
@[simp] theorem State.refuse_tdata (c : RefCode) (a : Addr) : (s.refuse c a).tdata = s.tdata := rfl
@[simp] theorem State.refuse_drawn (c : RefCode) (a : Addr) : (s.refuse c a).drawn = s.drawn := rfl
@[simp] theorem State.refuse_pending (c : RefCode) (a : Addr) :
    (s.refuse c a).pending = s.pending := rfl

/-! ### offer -/

@[simp] theorem State.offer_inReset (x : ClaimSource) (b : Bool) (r : Record) :
    (s.offer x b r).inReset = s.inReset := rfl
@[simp] theorem State.offer_frzn (x : ClaimSource) (b : Bool) (r : Record) :
    (s.offer x b r).frzn = s.frzn := rfl
@[simp] theorem State.offer_readData (x : ClaimSource) (b : Bool) (r : Record) :
    (s.offer x b r).readData = s.readData := rfl
@[simp] theorem State.offer_tb (x : ClaimSource) (b : Bool) (r : Record) :
    (s.offer x b r).tb = s.tb := rfl
@[simp] theorem State.offer_lines (x : ClaimSource) (b : Bool) (r : Record) :
    (s.offer x b r).lines = s.lines := rfl
@[simp] theorem State.offer_claims (x : ClaimSource) (b : Bool) (r : Record) :
    (s.offer x b r).claims = insertClaim ⟨x, b, r⟩ s.claims := rfl
@[simp] theorem State.offer_queues (x : ClaimSource) (b : Bool) (r : Record) :
    (s.offer x b r).queues = s.queues := rfl
@[simp] theorem State.offer_groups (x : ClaimSource) (b : Bool) (r : Record) :
    (s.offer x b r).groups = s.groups := rfl
@[simp] theorem State.offer_wsel (x : ClaimSource) (b : Bool) (r : Record) :
    (s.offer x b r).wsel = s.wsel := rfl
@[simp] theorem State.offer_outputs (x : ClaimSource) (b : Bool) (r : Record) :
    (s.offer x b r).outputs = s.outputs := rfl
@[simp] theorem State.offer_causes (x : ClaimSource) (b : Bool) (r : Record) :
    (s.offer x b r).causes = s.causes := rfl
@[simp] theorem State.offer_slots (x : ClaimSource) (b : Bool) (r : Record) :
    (s.offer x b r).slots = s.slots := rfl
@[simp] theorem State.offer_sched (x : ClaimSource) (b : Bool) (r : Record) :
    (s.offer x b r).sched = s.sched := rfl
@[simp] theorem State.offer_mode (x : ClaimSource) (b : Bool) (r : Record) :
    (s.offer x b r).mode = s.mode := rfl
@[simp] theorem State.offer_errFlags (x : ClaimSource) (b : Bool) (r : Record) :
    (s.offer x b r).errFlags = s.errFlags := rfl
@[simp] theorem State.offer_errEnable (x : ClaimSource) (b : Bool) (r : Record) :
    (s.offer x b r).errEnable = s.errEnable := rfl
@[simp] theorem State.offer_refCode (x : ClaimSource) (b : Bool) (r : Record) :
    (s.offer x b r).refCode = s.refCode := rfl
@[simp] theorem State.offer_refAddr (x : ClaimSource) (b : Bool) (r : Record) :
    (s.offer x b r).refAddr = s.refAddr := rfl
@[simp] theorem State.offer_tsel (x : ClaimSource) (b : Bool) (r : Record) :
    (s.offer x b r).tsel = s.tsel := rfl
@[simp] theorem State.offer_tidx (x : ClaimSource) (b : Bool) (r : Record) :
    (s.offer x b r).tidx = s.tidx := rfl
@[simp] theorem State.offer_tdata (x : ClaimSource) (b : Bool) (r : Record) :
    (s.offer x b r).tdata = s.tdata := rfl
@[simp] theorem State.offer_drawn (x : ClaimSource) (b : Bool) (r : Record) :
    (s.offer x b r).drawn = s.drawn := rfl
@[simp] theorem State.offer_pending (x : ClaimSource) (b : Bool) (r : Record) :
    (s.offer x b r).pending = s.pending := rfl

/-! ### setLine -/

@[simp] theorem State.setLine_inReset (n : LineNo) (l : Line) :
    (s.setLine n l).inReset = s.inReset := rfl
@[simp] theorem State.setLine_frzn (n : LineNo) (l : Line) : (s.setLine n l).frzn = s.frzn := rfl
@[simp] theorem State.setLine_readData (n : LineNo) (l : Line) :
    (s.setLine n l).readData = s.readData := rfl
@[simp] theorem State.setLine_tb (n : LineNo) (l : Line) : (s.setLine n l).tb = s.tb := rfl
@[simp] theorem State.setLine_lines (n : LineNo) (l : Line) :
    (s.setLine n l).lines = s.lines.set n l := rfl
@[simp] theorem State.setLine_claims (n : LineNo) (l : Line) :
    (s.setLine n l).claims = s.claims := rfl
@[simp] theorem State.setLine_queues (n : LineNo) (l : Line) :
    (s.setLine n l).queues = s.queues := rfl
@[simp] theorem State.setLine_groups (n : LineNo) (l : Line) :
    (s.setLine n l).groups = s.groups := rfl
@[simp] theorem State.setLine_wsel (n : LineNo) (l : Line) : (s.setLine n l).wsel = s.wsel := rfl
@[simp] theorem State.setLine_outputs (n : LineNo) (l : Line) :
    (s.setLine n l).outputs = s.outputs := rfl
@[simp] theorem State.setLine_causes (n : LineNo) (l : Line) :
    (s.setLine n l).causes = s.causes := rfl
@[simp] theorem State.setLine_slots (n : LineNo) (l : Line) : (s.setLine n l).slots = s.slots := rfl
@[simp] theorem State.setLine_sched (n : LineNo) (l : Line) : (s.setLine n l).sched = s.sched := rfl
@[simp] theorem State.setLine_mode (n : LineNo) (l : Line) : (s.setLine n l).mode = s.mode := rfl
@[simp] theorem State.setLine_errFlags (n : LineNo) (l : Line) :
    (s.setLine n l).errFlags = s.errFlags := rfl
@[simp] theorem State.setLine_errEnable (n : LineNo) (l : Line) :
    (s.setLine n l).errEnable = s.errEnable := rfl
@[simp] theorem State.setLine_refCode (n : LineNo) (l : Line) :
    (s.setLine n l).refCode = s.refCode := rfl
@[simp] theorem State.setLine_refAddr (n : LineNo) (l : Line) :
    (s.setLine n l).refAddr = s.refAddr := rfl
@[simp] theorem State.setLine_tsel (n : LineNo) (l : Line) : (s.setLine n l).tsel = s.tsel := rfl
@[simp] theorem State.setLine_tidx (n : LineNo) (l : Line) : (s.setLine n l).tidx = s.tidx := rfl
@[simp] theorem State.setLine_tdata (n : LineNo) (l : Line) : (s.setLine n l).tdata = s.tdata := rfl
@[simp] theorem State.setLine_drawn (n : LineNo) (l : Line) : (s.setLine n l).drawn = s.drawn := rfl
@[simp] theorem State.setLine_pending (n : LineNo) (l : Line) :
    (s.setLine n l).pending = s.pending := rfl

/-! ### setSlot -/

@[simp] theorem State.setSlot_inReset (i : SlotNo) (x : Slot) :
    (s.setSlot i x).inReset = s.inReset := rfl
@[simp] theorem State.setSlot_frzn (i : SlotNo) (x : Slot) : (s.setSlot i x).frzn = s.frzn := rfl
@[simp] theorem State.setSlot_readData (i : SlotNo) (x : Slot) :
    (s.setSlot i x).readData = s.readData := rfl
@[simp] theorem State.setSlot_tb (i : SlotNo) (x : Slot) : (s.setSlot i x).tb = s.tb := rfl
@[simp] theorem State.setSlot_lines (i : SlotNo) (x : Slot) : (s.setSlot i x).lines = s.lines := rfl
@[simp] theorem State.setSlot_claims (i : SlotNo) (x : Slot) :
    (s.setSlot i x).claims = s.claims := rfl
@[simp] theorem State.setSlot_queues (i : SlotNo) (x : Slot) :
    (s.setSlot i x).queues = s.queues := rfl
@[simp] theorem State.setSlot_groups (i : SlotNo) (x : Slot) :
    (s.setSlot i x).groups = s.groups := rfl
@[simp] theorem State.setSlot_wsel (i : SlotNo) (x : Slot) : (s.setSlot i x).wsel = s.wsel := rfl
@[simp] theorem State.setSlot_outputs (i : SlotNo) (x : Slot) :
    (s.setSlot i x).outputs = s.outputs := rfl
@[simp] theorem State.setSlot_causes (i : SlotNo) (x : Slot) :
    (s.setSlot i x).causes = s.causes := rfl
@[simp] theorem State.setSlot_slots (i : SlotNo) (x : Slot) :
    (s.setSlot i x).slots = s.slots.set i x := rfl
@[simp] theorem State.setSlot_sched (i : SlotNo) (x : Slot) : (s.setSlot i x).sched = s.sched := rfl
@[simp] theorem State.setSlot_mode (i : SlotNo) (x : Slot) : (s.setSlot i x).mode = s.mode := rfl
@[simp] theorem State.setSlot_errFlags (i : SlotNo) (x : Slot) :
    (s.setSlot i x).errFlags = s.errFlags := rfl
@[simp] theorem State.setSlot_errEnable (i : SlotNo) (x : Slot) :
    (s.setSlot i x).errEnable = s.errEnable := rfl
@[simp] theorem State.setSlot_refCode (i : SlotNo) (x : Slot) :
    (s.setSlot i x).refCode = s.refCode := rfl
@[simp] theorem State.setSlot_refAddr (i : SlotNo) (x : Slot) :
    (s.setSlot i x).refAddr = s.refAddr := rfl
@[simp] theorem State.setSlot_tsel (i : SlotNo) (x : Slot) : (s.setSlot i x).tsel = s.tsel := rfl
@[simp] theorem State.setSlot_tidx (i : SlotNo) (x : Slot) : (s.setSlot i x).tidx = s.tidx := rfl
@[simp] theorem State.setSlot_tdata (i : SlotNo) (x : Slot) : (s.setSlot i x).tdata = s.tdata := rfl
@[simp] theorem State.setSlot_drawn (i : SlotNo) (x : Slot) : (s.setSlot i x).drawn = s.drawn := rfl
@[simp] theorem State.setSlot_pending (i : SlotNo) (x : Slot) :
    (s.setSlot i x).pending = s.pending := rfl

/-! ### setQueue -/

@[simp] theorem State.setQueue_inReset (g : GroupNo) (q : Queue) :
    (s.setQueue g q).inReset = s.inReset := rfl
@[simp] theorem State.setQueue_frzn (g : GroupNo) (q : Queue) :
    (s.setQueue g q).frzn = s.frzn := rfl
@[simp] theorem State.setQueue_readData (g : GroupNo) (q : Queue) :
    (s.setQueue g q).readData = s.readData := rfl
@[simp] theorem State.setQueue_tb (g : GroupNo) (q : Queue) : (s.setQueue g q).tb = s.tb := rfl
@[simp] theorem State.setQueue_lines (g : GroupNo) (q : Queue) :
    (s.setQueue g q).lines = s.lines := rfl
@[simp] theorem State.setQueue_claims (g : GroupNo) (q : Queue) :
    (s.setQueue g q).claims = s.claims := rfl
@[simp] theorem State.setQueue_queues (g : GroupNo) (q : Queue) :
    (s.setQueue g q).queues = s.queues.set g q := rfl
@[simp] theorem State.setQueue_groups (g : GroupNo) (q : Queue) :
    (s.setQueue g q).groups = s.groups := rfl
@[simp] theorem State.setQueue_wsel (g : GroupNo) (q : Queue) :
    (s.setQueue g q).wsel = s.wsel := rfl
@[simp] theorem State.setQueue_outputs (g : GroupNo) (q : Queue) :
    (s.setQueue g q).outputs = s.outputs := rfl
@[simp] theorem State.setQueue_causes (g : GroupNo) (q : Queue) :
    (s.setQueue g q).causes = s.causes := rfl
@[simp] theorem State.setQueue_slots (g : GroupNo) (q : Queue) :
    (s.setQueue g q).slots = s.slots := rfl
@[simp] theorem State.setQueue_sched (g : GroupNo) (q : Queue) :
    (s.setQueue g q).sched = s.sched := rfl
@[simp] theorem State.setQueue_mode (g : GroupNo) (q : Queue) :
    (s.setQueue g q).mode = s.mode := rfl
@[simp] theorem State.setQueue_errFlags (g : GroupNo) (q : Queue) :
    (s.setQueue g q).errFlags = s.errFlags := rfl
@[simp] theorem State.setQueue_errEnable (g : GroupNo) (q : Queue) :
    (s.setQueue g q).errEnable = s.errEnable := rfl
@[simp] theorem State.setQueue_refCode (g : GroupNo) (q : Queue) :
    (s.setQueue g q).refCode = s.refCode := rfl
@[simp] theorem State.setQueue_refAddr (g : GroupNo) (q : Queue) :
    (s.setQueue g q).refAddr = s.refAddr := rfl
@[simp] theorem State.setQueue_tsel (g : GroupNo) (q : Queue) :
    (s.setQueue g q).tsel = s.tsel := rfl
@[simp] theorem State.setQueue_tidx (g : GroupNo) (q : Queue) :
    (s.setQueue g q).tidx = s.tidx := rfl
@[simp] theorem State.setQueue_tdata (g : GroupNo) (q : Queue) :
    (s.setQueue g q).tdata = s.tdata := rfl
@[simp] theorem State.setQueue_drawn (g : GroupNo) (q : Queue) :
    (s.setQueue g q).drawn = s.drawn := rfl
@[simp] theorem State.setQueue_pending (g : GroupNo) (q : Queue) :
    (s.setQueue g q).pending = s.pending := rfl

/-! ### setGroup -/

@[simp] theorem State.setGroup_inReset (g : GroupNo) (x : Group) :
    (s.setGroup g x).inReset = s.inReset := rfl
@[simp] theorem State.setGroup_frzn (g : GroupNo) (x : Group) :
    (s.setGroup g x).frzn = s.frzn := rfl
@[simp] theorem State.setGroup_readData (g : GroupNo) (x : Group) :
    (s.setGroup g x).readData = s.readData := rfl
@[simp] theorem State.setGroup_tb (g : GroupNo) (x : Group) : (s.setGroup g x).tb = s.tb := rfl
@[simp] theorem State.setGroup_lines (g : GroupNo) (x : Group) :
    (s.setGroup g x).lines = s.lines := rfl
@[simp] theorem State.setGroup_claims (g : GroupNo) (x : Group) :
    (s.setGroup g x).claims = s.claims := rfl
@[simp] theorem State.setGroup_queues (g : GroupNo) (x : Group) :
    (s.setGroup g x).queues = s.queues := rfl
@[simp] theorem State.setGroup_groups (g : GroupNo) (x : Group) :
    (s.setGroup g x).groups = s.groups.set g x := rfl
@[simp] theorem State.setGroup_wsel (g : GroupNo) (x : Group) :
    (s.setGroup g x).wsel = s.wsel := rfl
@[simp] theorem State.setGroup_outputs (g : GroupNo) (x : Group) :
    (s.setGroup g x).outputs = s.outputs := rfl
@[simp] theorem State.setGroup_causes (g : GroupNo) (x : Group) :
    (s.setGroup g x).causes = s.causes := rfl
@[simp] theorem State.setGroup_slots (g : GroupNo) (x : Group) :
    (s.setGroup g x).slots = s.slots := rfl
@[simp] theorem State.setGroup_sched (g : GroupNo) (x : Group) :
    (s.setGroup g x).sched = s.sched := rfl
@[simp] theorem State.setGroup_mode (g : GroupNo) (x : Group) :
    (s.setGroup g x).mode = s.mode := rfl
@[simp] theorem State.setGroup_errFlags (g : GroupNo) (x : Group) :
    (s.setGroup g x).errFlags = s.errFlags := rfl
@[simp] theorem State.setGroup_errEnable (g : GroupNo) (x : Group) :
    (s.setGroup g x).errEnable = s.errEnable := rfl
@[simp] theorem State.setGroup_refCode (g : GroupNo) (x : Group) :
    (s.setGroup g x).refCode = s.refCode := rfl
@[simp] theorem State.setGroup_refAddr (g : GroupNo) (x : Group) :
    (s.setGroup g x).refAddr = s.refAddr := rfl
@[simp] theorem State.setGroup_tsel (g : GroupNo) (x : Group) :
    (s.setGroup g x).tsel = s.tsel := rfl
@[simp] theorem State.setGroup_tidx (g : GroupNo) (x : Group) :
    (s.setGroup g x).tidx = s.tidx := rfl
@[simp] theorem State.setGroup_tdata (g : GroupNo) (x : Group) :
    (s.setGroup g x).tdata = s.tdata := rfl
@[simp] theorem State.setGroup_drawn (g : GroupNo) (x : Group) :
    (s.setGroup g x).drawn = s.drawn := rfl
@[simp] theorem State.setGroup_pending (g : GroupNo) (x : Group) :
    (s.setGroup g x).pending = s.pending := rfl

/-! ### setOut -/

@[simp] theorem State.setOut_inReset (n : OutNo) (o : OutLine) :
    (s.setOut n o).inReset = s.inReset := rfl
@[simp] theorem State.setOut_frzn (n : OutNo) (o : OutLine) : (s.setOut n o).frzn = s.frzn := rfl
@[simp] theorem State.setOut_readData (n : OutNo) (o : OutLine) :
    (s.setOut n o).readData = s.readData := rfl
@[simp] theorem State.setOut_tb (n : OutNo) (o : OutLine) : (s.setOut n o).tb = s.tb := rfl
@[simp] theorem State.setOut_lines (n : OutNo) (o : OutLine) : (s.setOut n o).lines = s.lines := rfl
@[simp] theorem State.setOut_claims (n : OutNo) (o : OutLine) :
    (s.setOut n o).claims = s.claims := rfl
@[simp] theorem State.setOut_queues (n : OutNo) (o : OutLine) :
    (s.setOut n o).queues = s.queues := rfl
@[simp] theorem State.setOut_groups (n : OutNo) (o : OutLine) :
    (s.setOut n o).groups = s.groups := rfl
@[simp] theorem State.setOut_wsel (n : OutNo) (o : OutLine) : (s.setOut n o).wsel = s.wsel := rfl
@[simp] theorem State.setOut_outputs (n : OutNo) (o : OutLine) :
    (s.setOut n o).outputs = s.outputs.set n o := rfl
@[simp] theorem State.setOut_causes (n : OutNo) (o : OutLine) :
    (s.setOut n o).causes = s.causes := rfl
@[simp] theorem State.setOut_slots (n : OutNo) (o : OutLine) : (s.setOut n o).slots = s.slots := rfl
@[simp] theorem State.setOut_sched (n : OutNo) (o : OutLine) : (s.setOut n o).sched = s.sched := rfl
@[simp] theorem State.setOut_mode (n : OutNo) (o : OutLine) : (s.setOut n o).mode = s.mode := rfl
@[simp] theorem State.setOut_errFlags (n : OutNo) (o : OutLine) :
    (s.setOut n o).errFlags = s.errFlags := rfl
@[simp] theorem State.setOut_errEnable (n : OutNo) (o : OutLine) :
    (s.setOut n o).errEnable = s.errEnable := rfl
@[simp] theorem State.setOut_refCode (n : OutNo) (o : OutLine) :
    (s.setOut n o).refCode = s.refCode := rfl
@[simp] theorem State.setOut_refAddr (n : OutNo) (o : OutLine) :
    (s.setOut n o).refAddr = s.refAddr := rfl
@[simp] theorem State.setOut_tsel (n : OutNo) (o : OutLine) : (s.setOut n o).tsel = s.tsel := rfl
@[simp] theorem State.setOut_tidx (n : OutNo) (o : OutLine) : (s.setOut n o).tidx = s.tidx := rfl
@[simp] theorem State.setOut_tdata (n : OutNo) (o : OutLine) : (s.setOut n o).tdata = s.tdata := rfl
@[simp] theorem State.setOut_drawn (n : OutNo) (o : OutLine) : (s.setOut n o).drawn = s.drawn := rfl
@[simp] theorem State.setOut_pending (n : OutNo) (o : OutLine) :
    (s.setOut n o).pending = s.pending := rfl

/-! ### setTb -/

@[simp] theorem State.setTb_inReset (t : Timebase) : (s.setTb t).inReset = s.inReset := rfl
@[simp] theorem State.setTb_frzn (t : Timebase) : (s.setTb t).frzn = s.frzn := rfl
@[simp] theorem State.setTb_readData (t : Timebase) : (s.setTb t).readData = s.readData := rfl
@[simp] theorem State.setTb_tb (t : Timebase) : (s.setTb t).tb = t := rfl
@[simp] theorem State.setTb_lines (t : Timebase) : (s.setTb t).lines = s.lines := rfl
@[simp] theorem State.setTb_claims (t : Timebase) : (s.setTb t).claims = s.claims := rfl
@[simp] theorem State.setTb_queues (t : Timebase) : (s.setTb t).queues = s.queues := rfl
@[simp] theorem State.setTb_groups (t : Timebase) : (s.setTb t).groups = s.groups := rfl
@[simp] theorem State.setTb_wsel (t : Timebase) : (s.setTb t).wsel = s.wsel := rfl
@[simp] theorem State.setTb_outputs (t : Timebase) : (s.setTb t).outputs = s.outputs := rfl
@[simp] theorem State.setTb_causes (t : Timebase) : (s.setTb t).causes = s.causes := rfl
@[simp] theorem State.setTb_slots (t : Timebase) : (s.setTb t).slots = s.slots := rfl
@[simp] theorem State.setTb_sched (t : Timebase) : (s.setTb t).sched = s.sched := rfl
@[simp] theorem State.setTb_mode (t : Timebase) : (s.setTb t).mode = s.mode := rfl
@[simp] theorem State.setTb_errFlags (t : Timebase) : (s.setTb t).errFlags = s.errFlags := rfl
@[simp] theorem State.setTb_errEnable (t : Timebase) : (s.setTb t).errEnable = s.errEnable := rfl
@[simp] theorem State.setTb_refCode (t : Timebase) : (s.setTb t).refCode = s.refCode := rfl
@[simp] theorem State.setTb_refAddr (t : Timebase) : (s.setTb t).refAddr = s.refAddr := rfl
@[simp] theorem State.setTb_tsel (t : Timebase) : (s.setTb t).tsel = s.tsel := rfl
@[simp] theorem State.setTb_tidx (t : Timebase) : (s.setTb t).tidx = s.tidx := rfl
@[simp] theorem State.setTb_tdata (t : Timebase) : (s.setTb t).tdata = s.tdata := rfl
@[simp] theorem State.setTb_drawn (t : Timebase) : (s.setTb t).drawn = s.drawn := rfl
@[simp] theorem State.setTb_pending (t : Timebase) : (s.setTb t).pending = s.pending := rfl

/-! ### setSched -/

@[simp] theorem State.setSched_inReset (x : Schedule) : (s.setSched x).inReset = s.inReset := rfl
@[simp] theorem State.setSched_frzn (x : Schedule) : (s.setSched x).frzn = s.frzn := rfl
@[simp] theorem State.setSched_readData (x : Schedule) : (s.setSched x).readData = s.readData := rfl
@[simp] theorem State.setSched_tb (x : Schedule) : (s.setSched x).tb = s.tb := rfl
@[simp] theorem State.setSched_lines (x : Schedule) : (s.setSched x).lines = s.lines := rfl
@[simp] theorem State.setSched_claims (x : Schedule) : (s.setSched x).claims = s.claims := rfl
@[simp] theorem State.setSched_queues (x : Schedule) : (s.setSched x).queues = s.queues := rfl
@[simp] theorem State.setSched_groups (x : Schedule) : (s.setSched x).groups = s.groups := rfl
@[simp] theorem State.setSched_wsel (x : Schedule) : (s.setSched x).wsel = s.wsel := rfl
@[simp] theorem State.setSched_outputs (x : Schedule) : (s.setSched x).outputs = s.outputs := rfl
@[simp] theorem State.setSched_causes (x : Schedule) : (s.setSched x).causes = s.causes := rfl
@[simp] theorem State.setSched_slots (x : Schedule) : (s.setSched x).slots = s.slots := rfl
@[simp] theorem State.setSched_sched (x : Schedule) : (s.setSched x).sched = x := rfl
@[simp] theorem State.setSched_mode (x : Schedule) : (s.setSched x).mode = s.mode := rfl
@[simp] theorem State.setSched_errFlags (x : Schedule) : (s.setSched x).errFlags = s.errFlags := rfl
@[simp] theorem State.setSched_errEnable (x : Schedule) :
    (s.setSched x).errEnable = s.errEnable := rfl
@[simp] theorem State.setSched_refCode (x : Schedule) : (s.setSched x).refCode = s.refCode := rfl
@[simp] theorem State.setSched_refAddr (x : Schedule) : (s.setSched x).refAddr = s.refAddr := rfl
@[simp] theorem State.setSched_tsel (x : Schedule) : (s.setSched x).tsel = s.tsel := rfl
@[simp] theorem State.setSched_tidx (x : Schedule) : (s.setSched x).tidx = s.tidx := rfl
@[simp] theorem State.setSched_tdata (x : Schedule) : (s.setSched x).tdata = s.tdata := rfl
@[simp] theorem State.setSched_drawn (x : Schedule) : (s.setSched x).drawn = s.drawn := rfl
@[simp] theorem State.setSched_pending (x : Schedule) : (s.setSched x).pending = s.pending := rfl

/-! ### setFlagIf -/

@[simp] theorem State.setFlagIf_inReset (c : Bool) (f : ErrFlag) :
    (s.setFlagIf c f).inReset = s.inReset := by
  cases c <;> rfl
@[simp] theorem State.setFlagIf_frzn (c : Bool) (f : ErrFlag) :
    (s.setFlagIf c f).frzn = s.frzn := by
  cases c <;> rfl
@[simp] theorem State.setFlagIf_readData (c : Bool) (f : ErrFlag) :
    (s.setFlagIf c f).readData = s.readData := by
  cases c <;> rfl
@[simp] theorem State.setFlagIf_tb (c : Bool) (f : ErrFlag) : (s.setFlagIf c f).tb = s.tb := by
  cases c <;> rfl
@[simp] theorem State.setFlagIf_lines (c : Bool) (f : ErrFlag) :
    (s.setFlagIf c f).lines = s.lines := by
  cases c <;> rfl
@[simp] theorem State.setFlagIf_claims (c : Bool) (f : ErrFlag) :
    (s.setFlagIf c f).claims = s.claims := by
  cases c <;> rfl
@[simp] theorem State.setFlagIf_queues (c : Bool) (f : ErrFlag) :
    (s.setFlagIf c f).queues = s.queues := by
  cases c <;> rfl
@[simp] theorem State.setFlagIf_groups (c : Bool) (f : ErrFlag) :
    (s.setFlagIf c f).groups = s.groups := by
  cases c <;> rfl
@[simp] theorem State.setFlagIf_wsel (c : Bool) (f : ErrFlag) :
    (s.setFlagIf c f).wsel = s.wsel := by
  cases c <;> rfl
@[simp] theorem State.setFlagIf_outputs (c : Bool) (f : ErrFlag) :
    (s.setFlagIf c f).outputs = s.outputs := by
  cases c <;> rfl
@[simp] theorem State.setFlagIf_causes (c : Bool) (f : ErrFlag) :
    (s.setFlagIf c f).causes = s.causes := by
  cases c <;> rfl
@[simp] theorem State.setFlagIf_slots (c : Bool) (f : ErrFlag) :
    (s.setFlagIf c f).slots = s.slots := by
  cases c <;> rfl
@[simp] theorem State.setFlagIf_sched (c : Bool) (f : ErrFlag) :
    (s.setFlagIf c f).sched = s.sched := by
  cases c <;> rfl
@[simp] theorem State.setFlagIf_mode (c : Bool) (f : ErrFlag) :
    (s.setFlagIf c f).mode = s.mode := by
  cases c <;> rfl
@[simp] theorem State.setFlagIf_errFlags (c : Bool) (f : ErrFlag) :
    (s.setFlagIf c f).errFlags = if c then s.errFlags ||| f.bit else s.errFlags := by
  cases c <;> rfl
@[simp] theorem State.setFlagIf_errEnable (c : Bool) (f : ErrFlag) :
    (s.setFlagIf c f).errEnable = s.errEnable := by
  cases c <;> rfl
@[simp] theorem State.setFlagIf_refCode (c : Bool) (f : ErrFlag) :
    (s.setFlagIf c f).refCode = s.refCode := by
  cases c <;> rfl
@[simp] theorem State.setFlagIf_refAddr (c : Bool) (f : ErrFlag) :
    (s.setFlagIf c f).refAddr = s.refAddr := by
  cases c <;> rfl
@[simp] theorem State.setFlagIf_tsel (c : Bool) (f : ErrFlag) :
    (s.setFlagIf c f).tsel = s.tsel := by
  cases c <;> rfl
@[simp] theorem State.setFlagIf_tidx (c : Bool) (f : ErrFlag) :
    (s.setFlagIf c f).tidx = s.tidx := by
  cases c <;> rfl
@[simp] theorem State.setFlagIf_tdata (c : Bool) (f : ErrFlag) :
    (s.setFlagIf c f).tdata = s.tdata := by
  cases c <;> rfl
@[simp] theorem State.setFlagIf_drawn (c : Bool) (f : ErrFlag) :
    (s.setFlagIf c f).drawn = s.drawn := by
  cases c <;> rfl
@[simp] theorem State.setFlagIf_pending (c : Bool) (f : ErrFlag) :
    (s.setFlagIf c f).pending = s.pending := by
  cases c <;> rfl

@[simp] theorem State.setFlagIf_true (f : ErrFlag) : s.setFlagIf true f = s.setFlag f := rfl
@[simp] theorem State.setFlagIf_false (f : ErrFlag) : s.setFlagIf false f = s := rfl
@[simp] theorem State.whenDue_true (f : State → State) : s.whenDue true f = f s := rfl
@[simp] theorem State.whenDue_false (f : State → State) : s.whenDue false f = s := rfl
@[simp] theorem State.whenTickDue_false (f : State → State) : s.whenTickDue false f = s := by
  simp [State.whenTickDue]

end Sys2Proof.Machine
end

