-- ==== Sys2Proof/Laws/Ops.lean ====
section
/-!
SUPPORT. The laws of the operations all blocks share: the order of waiting claims, doing one thing for
every number, the words that show one bit per thing, and the words of a time value.
-/
namespace Sys2Proof.Machine

/-! ### Waiting claims (R55) -/

/-- A claim put among the waiting ones: they are the same claims and the new one. -/
theorem insertClaim_perm (c : Claim) (cs : List Claim) : (insertClaim c cs).Perm (c :: cs) := by
  induction cs with
  | nil => exact List.Perm.refl _
  | cons d ds ih =>
    simp only [insertClaim]
    split
    · exact ((List.Perm.cons d ih).trans (List.Perm.swap c d ds))
    · exact List.Perm.refl _

theorem mem_insertClaim {c x : Claim} {cs : List Claim} : x ∈ insertClaim c cs ↔ x = c ∨ x ∈ cs := by
  rw [(insertClaim_perm c cs).mem_iff, List.mem_cons]

/-- A claim put among claims in the order of R55 leaves them in that order. -/
theorem insertClaim_ordered (c : Claim) {cs : List Claim}
    (h : cs.Pairwise fun a b => a.source.rank ≤ b.source.rank) :
    (insertClaim c cs).Pairwise fun a b => a.source.rank ≤ b.source.rank := by
  induction cs with
  | nil => simp [insertClaim]
  | cons d ds ih =>
    obtain ⟨hd, hds⟩ := List.pairwise_cons.1 h
    simp only [insertClaim]
    split
    · next hle =>
      refine List.pairwise_cons.2 ⟨fun x hx => ?_, ih hds⟩
      rcases mem_insertClaim.1 hx with rfl | hx
      · exact hle
      · exact hd x hx
    · next hlt =>
      refine List.pairwise_cons.2 ⟨fun x hx => ?_, h⟩
      rcases List.mem_cons.1 hx with rfl | hx
      · omega
      · have := hd x hx; omega

@[simp] theorem insertClaim_nil (c : Claim) : insertClaim c [] = [c] := rfl

/-! ### Doing one thing for every number -/

/-- What every single thing done keeps, doing it for every number keeps. -/
theorem forEach_keeps {n : Nat} {P : State → Prop} {f : Fin n → State → State}
    (h : ∀ i t, P t → P (f i t)) {s : State} (hs : P s) : P (forEach f s) := by
  unfold forEach
  generalize List.finRange n = is
  induction is generalizing s with
  | nil => exact hs
  | cons i is ih => exact ih (h i s hs)

/-- A view of the state that every single thing leaves alone is left alone. -/
theorem forEach_same {n : Nat} {α : Type} (view : State → α) {f : Fin n → State → State}
    (h : ∀ i t, view (f i t) = view t) (s : State) : view (forEach f s) = view s :=
  forEach_keeps (P := fun t => view t = view s) (fun i t ht => (h i t).trans ht) rfl

/-- A happening that is due or not: done, or the state as it was. -/
theorem State.whenDue_cases (s : State) (b : Bool) (f : State → State) :
    (b = true ∧ s.whenDue b f = f s) ∨ (b = false ∧ s.whenDue b f = s) := by
  cases b <;> simp

/-- A happening of the most recent tick: done where the Timebase runs and it is due, or the state as it
was. -/
theorem State.whenTickDue_cases (s : State) (b : Bool) (f : State → State) :
    (s.tb.state ≠ .stopped ∧ b = true ∧ s.whenTickDue b f = f s) ∨
      ((s.tb.state = .stopped ∨ b = false) ∧ s.whenTickDue b f = s) := by
  by_cases h : s.tb.state = .stopped <;> cases b <;> simp [State.whenTickDue, h]

/-- While the Timebase is STOPPED no happening of a tick is due (R1). -/
theorem State.whenTickDue_stopped {s : State} (h : s.tb.state = .stopped) (b : Bool) (f : State → State) :
    s.whenTickDue b f = s := by
  simp [State.whenTickDue, h]

theorem State.whenTickDue_running {s : State} (h : s.tb.state ≠ .stopped) (b : Bool) (f : State → State) :
    s.whenTickDue b f = s.whenDue b f := by
  simp [State.whenTickDue, h]

/-- Doing a thing that changes nothing for every number changes nothing. -/
theorem forEach_id {n : Nat} {f : Fin n → State → State} {s : State} (h : ∀ i, f i s = s) :
    forEach f s = s :=
  forEach_keeps (P := fun t => t = s) (fun i t ht => by rw [ht, h]) rfl

/-- The stamp of a record offered while the Timebase is STOPPED (R47, R50): the held time value and the
current epoch, with UNSYNC. -/
theorem State.eventStamp_stopped {s : State} (h : s.tb.state = .stopped) :
    s.eventStamp = ⟨s.tb.counter, s.tb.epoch, true⟩ := if_pos h

theorem State.eventStamp_running {s : State} (h : s.tb.state ≠ .stopped) : s.eventStamp = s.tickStamp :=
  if_neg h

/-! ### Words that show one bit per thing -/

theorem getLsbD_wordOf_aux (f : Nat → Bool) (k : Nat) (hk : k ≤ 16) (i : Nat) :
    ((List.range k).foldl (fun w i => if f i then w ||| BitVec.ofNat 16 (2 ^ i) else w) (0 : Word)).getLsbD i
      = (decide (i < k) && f i) := by
  induction k with
  | zero => simp
  | succ k ih =>
    rw [List.range_succ, List.foldl_append]
    simp only [List.foldl_cons, List.foldl_nil]
    have hk' : k < 16 := by omega
    have hb : (BitVec.ofNat 16 (2 ^ k)).getLsbD i = decide (i = k) := by
      rw [BitVec.getLsbD_ofNat, Nat.testBit_two_pow]
      by_cases h : k = i
      · subst h; simp [hk']
      · simp [h, Ne.symm h]
    by_cases hf : f k = true
    · rw [if_pos hf, BitVec.getLsbD_or, ih (by omega), hb]
      by_cases h : i = k
      · subst h; simp [hf]
      · have : (i < k + 1) = (i < k) := by apply propext; omega
        simp [h, this]
    · rw [if_neg hf, ih (by omega)]
      by_cases h : i = k
      · subst h; simp [Bool.eq_false_iff.2 hf]
      · have : (i < k + 1) = (i < k) := by apply propext; omega
        simp [this]

/-- Bit i of a word made of bits. -/
@[simp] theorem getLsbD_wordOf (f : Nat → Bool) (i : Nat) :
    (wordOf f).getLsbD i = (decide (i < 16) && f i) :=
  getLsbD_wordOf_aux f 16 (Nat.le_refl _) i

/-- A view of n things in words: thing k stands at bit (k mod 16) of word k div 16. -/
theorem getLsbD_viewWord {n : Nat} (f : Fin n → Bool) (k : Fin n) :
    (viewWord f (k.val / 16)).getLsbD (k.val % 16) = f k := by
  have h : 16 * (k.val / 16) + k.val % 16 = k.val := Nat.div_add_mod _ _
  simp only [viewWord, getLsbD_wordOf, h, k.isLt, dif_pos]
  simp [Nat.mod_lt]

/-- The bits of a view beyond the last thing read 0. -/
theorem getLsbD_viewWord_beyond {n : Nat} (f : Fin n → Bool) (half i : Nat) (h : n ≤ 16 * half + i) :
    (viewWord f half).getLsbD i = false := by
  simp [viewWord, Nat.not_lt.2 h]

/-- A one-bit field of a word. -/
theorem getLsbD_bitAt (b : Bool) (i j : Nat) (hi : i < 16) :
    (bitAt b i).getLsbD j = (b && decide (j = i)) := by
  cases b
  · simp [bitAt]
  · simp only [bitAt, if_true, BitVec.getLsbD_ofNat, Nat.testBit_two_pow]
    by_cases h : i = j
    · subst h; simp [hi]
    · simp [h, Ne.symm h]

/-! ### Time values -/

/-- Bit k of three words put together, the third the least significant. -/
theorem getLsbD_words (a b c : Word) (k : Nat) :
    (a ++ b ++ c : Time).getLsbD k =
      if k < 16 then c.getLsbD k else if k < 32 then b.getLsbD (k - 16) else a.getLsbD (k - 32) := by
  have h : (a ++ b ++ c : Time).getLsbD k =
      (a ++ b ++ c : BitVec (16 + 16 + 16)).getLsbD k := rfl
  rw [h, BitVec.getLsbD_append, BitVec.getLsbD_append]
  by_cases h1 : k < 16
  · simp [h1]
  · by_cases h2 : k < 32
    · have : k - 16 < 16 := by omega
      simp [h1, h2, this]
    · have h3 : ¬ k - 16 < 16 := by omega
      have h4 : k - 16 - 16 = k - 32 := by omega
      simp [h1, h2, h3, h4]

/-- Writing one word of a 48-bit value: that word reads as written, the others as they stood. -/
theorem timeWord_setTimeWord (t : Time) (i j : Fin 3) (w : Word) :
    timeWord (setTimeWord t i w) j = if j = i then w else timeWord t j := by
  apply BitVec.eq_of_getLsbD_eq
  intro k hk
  have h1 : 16 + k < 32 := by omega
  have h2 : ¬ 32 + k < 32 := by omega
  have h3 : ¬ 32 + k < 16 := by omega
  have h4 : 16 + k - 16 = k := by omega
  have h5 : 32 + k - 32 = k := by omega
  fin_cases i <;> fin_cases j <;>
    simp [timeWord, setTimeWord, getLsbD_words, hk, h1, h2, h3, h4, h5]

/-- A time value is either reached or ahead by at most 2^47 (R3). -/
theorem distance_of_not_reached {now t : Time} (h : reached now t = false) :
    1 ≤ distance now t ∧ distance now t ≤ 2 ^ 47 := by
  simp only [reached, decide_eq_false_iff_not, not_lt, distance] at *
  bv_omega

end Sys2Proof.Machine
end

