-- ==== Sys2Proof/Laws/PerInstr.lean ====
section
/-!
SUPPORT. A statement about every command as syntax, one lemma per constructor: a host command with a row of
its own is spelled by a write to an address of the map, below 90H (Section 10.2).
-/
namespace Sys2Proof.Laws.HostAddress

/-- The write that spells a command goes to an address below 90H, unless the command is a REGISTER_WRITE,
which takes any address. -/
def Statement (i : Instr) : Prop :=
  ∀ a w, writeOfCommand i = some (a, w) → a.toNat < 0x90 ∨ i = .registerWrite a w

theorem tick (lines : BitVec 64) (sync expiryFirst : Bool) :
    Statement (.tick lines sync expiryFirst) := by
  intro a w h
  cases h

theorem slewAdjustment : Statement (.slewAdjustment) := by
  intro a w h
  cases h

theorem missTimerExpiry : Statement (.missTimerExpiry) := by
  intro a w h
  cases h

theorem start (syncEnable stepAllow freezeOnHoldover : Bool) :
    Statement (.start syncEnable stepAllow freezeOnHoldover) := by
  intro a w h
  cases h
  exact Or.inl (by decide)

theorem stop (syncEnable stepAllow freezeOnHoldover : Bool) :
    Statement (.stop syncEnable stepAllow freezeOnHoldover) := by
  intro a w h
  cases h
  exact Or.inl (by decide)

theorem preset (syncEnable stepAllow freezeOnHoldover : Bool) :
    Statement (.preset syncEnable stepAllow freezeOnHoldover) := by
  intro a w h
  cases h
  exact Or.inl (by decide)

theorem switches (syncEnable stepAllow freezeOnHoldover : Bool) :
    Statement (.switches syncEnable stepAllow freezeOnHoldover) := by
  intro a w h
  cases h
  exact Or.inl (by decide)

theorem timeRead : Statement (.timeRead) := by
  intro a w h
  cases h

theorem qualification (line : LineNo) : Statement (.qualification line) := by
  intro a w h
  cases h

theorem release (line : LineNo) : Statement (.release line) := by
  intro a w h
  cases h

theorem delayRunsOut (slot : SlotNo) : Statement (.delayRunsOut slot) := by
  intro a w h
  cases h

theorem widthRunsOut (slot : SlotNo) : Statement (.widthRunsOut slot) := by
  intro a w h
  cases h

theorem arm (slot : SlotNo) : Statement (.arm slot) := by
  intro a w h
  cases h
  exact Or.inl (by decide)

theorem disarm (slot : SlotNo) : Statement (.disarm slot) := by
  intro a w h
  cases h
  exact Or.inl (by decide)

theorem clear (slot : SlotNo) : Statement (.clear slot) := by
  intro a w h
  cases h
  exact Or.inl (by decide)

theorem firing : Statement (.firing) := by
  intro a w h
  cases h

theorem cancel : Statement (.cancel) := by
  intro a w h
  cases h
  exact Or.inl (by decide)

theorem clearAll : Statement (.clearAll) := by
  intro a w h
  cases h
  exact Or.inl (by decide)

theorem discard : Statement (.discard) := by
  intro a w h
  cases h
  exact Or.inl (by decide)

theorem commitNow : Statement (.commitNow) := by
  intro a w h
  cases h
  exact Or.inl (by decide)

theorem commitAt : Statement (.commitAt) := by
  intro a w h
  cases h
  exact Or.inl (by decide)

theorem abort : Statement (.abort) := by
  intro a w h
  cases h
  exact Or.inl (by decide)

theorem commitTimeReached : Statement (.commitTimeReached) := by
  intro a w h
  cases h

theorem insert : Statement (.insert) := by
  intro a w h
  cases h

theorem cancelOperation : Statement (.cancelOperation) := by
  intro a w h
  cases h

theorem clearAllOperation : Statement (.clearAllOperation) := by
  intro a w h
  cases h

theorem applicationFinish : Statement (.applicationFinish) := by
  intro a w h
  cases h

theorem claim : Statement (.claim) := by
  intro a w h
  cases h

theorem acknowledge (group : GroupNo) (sequence : Word) : Statement (.acknowledge group sequence) := by
  intro a w h
  cases h
  left
  simp
  omega

theorem flush (word : Word) : Statement (.flush word) := by
  intro a w h
  cases h
  exact Or.inl (by decide)

theorem delenWrite (word : Word) : Statement (.delenWrite word) := by
  intro a w h
  cases h
  exact Or.inl (by decide)

theorem ageTimerRunsOut (group : GroupNo) : Statement (.ageTimerRunsOut group) := by
  intro a w h
  cases h

theorem hostset (half : Fin 2) (word : Word) : Statement (.hostset half word) := by
  intro a w h
  cases h
  left
  simp
  omega

theorem hostclr (half : Fin 2) (word : Word) : Statement (.hostclr half word) := by
  intro a w h
  cases h
  left
  simp
  omega

theorem frznFall : Statement (.frznFall) := by
  intro a w h
  cases h

theorem frznRise : Statement (.frznRise) := by
  intro a w h
  cases h

theorem freeze : Statement (.freeze) := by
  intro a w h
  cases h
  exact Or.inl (by decide)

theorem unfreeze : Statement (.unfreeze) := by
  intro a w h
  cases h
  exact Or.inl (by decide)

theorem read : Statement (.read) := by
  intro a w h
  cases h
  exact Or.inl (by decide)

theorem write : Statement (.write) := by
  intro a w h
  cases h
  exact Or.inl (by decide)

theorem append : Statement (.append) := by
  intro a w h
  cases h
  exact Or.inl (by decide)

theorem run : Statement (.run) := by
  intro a w h
  cases h
  exact Or.inl (by decide)

theorem halt : Statement (.halt) := by
  intro a w h
  cases h
  exact Or.inl (by decide)

theorem softReset : Statement (.softReset) := by
  intro a w h
  cases h
  exact Or.inl (by decide)

theorem deviceReset (resetn : Bool) : Statement (.deviceReset resetn) := by
  intro a w h
  cases h

theorem errflagClear (word : Word) : Statement (.errflagClear word) := by
  intro a w h
  cases h
  exact Or.inl (by decide)

theorem registerWrite (addr : Addr) (word : Word) : Statement (.registerWrite addr word) := by
  intro a w h
  cases h
  exact Or.inr rfl

end Sys2Proof.Laws.HostAddress
end

