-- ==== Sys2Proof/Laws/Pool.lean ====
section
/-!
SUPPORT. The laws of the Record Pool and the Delivery Unit: where a record is placed, what the taking of
a claim can change, and what a host access finds.
-/
namespace Sys2Proof.Machine

/-! ### Placement (R59) -/

/-- The scan splits the records from the tail: it passes records with larger keys and stops at the first
whose key is not larger. -/
theorem placeFromTail_split (r : Record) (xs : List Record) :
    ∃ pre post, xs = pre ++ post ∧ placeFromTail r xs = pre ++ r :: post ∧
      (∀ x ∈ pre, r.key.lt x.key = true) ∧ (∀ y, post.head? = some y → r.key.lt y.key = false) := by
  induction xs with
  | nil => exact ⟨[], [], rfl, rfl, by simp, by simp⟩
  | cons x xs ih =>
    simp only [placeFromTail]
    split
    · next h =>
      obtain ⟨pre, post, e1, e2, h1, h2⟩ := ih
      refine ⟨x :: pre, post, by simp [e1], by simp [e2], ?_, h2⟩
      intro y hy
      rcases List.mem_cons.1 hy with rfl | hy
      · exact h
      · exact h1 y hy
    · next h =>
      refine ⟨[], x :: xs, rfl, rfl, by simp, ?_⟩
      intro y hy
      simp only [List.head?_cons, Option.some.injEq] at hy
      subst hy
      simpa using h

/-- A record placed in a queue: the records are those of before and the new one. -/
theorem Queue.place_length (q : Queue) (p : Bool) (r : Record) :
    (q.place p r).length = q.records.length + 1 := by
  obtain ⟨pre, post, e1, e2, -, -⟩ := placeFromTail_split r (q.records.drop (q.fixed p)).reverse
  have h := congrArg List.length e1
  simp only [List.length_reverse, List.length_drop, List.length_append] at h
  simp only [Queue.place, e2, List.length_append, List.length_reverse, List.length_take,
    List.length_cons]
  omega

/-! ### Taking a claim (R55) -/

theorem State.present_frame (s : State) (g : GroupNo) :
    ∃ qs gs, s.present g = { s with queues := qs, groups := gs } := ⟨_, _, rfl⟩

theorem State.admissionNotice_frame (s : State) (g : GroupNo) (b : Bool) :
    ∃ qs gs, s.admissionNotice g b = { s with queues := qs, groups := gs } := by
  unfold State.admissionNotice
  split
  · exact s.present_frame g
  · exact ⟨s.queues, s.groups, rfl⟩

/-- A failing claim under DROP_OLDEST changes the queues and sets LOSS (R63). -/
theorem State.dropOldest_frame (s : State) (g : GroupNo) (r : Record) :
    ∃ qs gs, s.dropOldest g r = { s with queues := qs, groups := gs } ∨
      s.dropOldest g r =
        { s with queues := qs, groups := gs, errFlags := s.errFlags ||| ErrFlag.loss.bit } := by
  simp only [State.dropOldest]
  generalize (if (s.groups.get g).presented.isSome = true then 1 else 0) = i
  cases (s.queues.get g).records[i]? with
  | none => exact ⟨_, _, Or.inr rfl⟩
  | some c =>
    simp only
    generalize (decide ((s.queues.get g).runStart ≤ i) && r.key.lt c.key) = b
    cases b with
    | false => exact ⟨_, _, Or.inr rfl⟩
    | true => exact ⟨_, _, Or.inr rfl⟩

/-- Taking a record changes the queues and the groups, and may set LOSS; nothing else. -/
theorem State.takeRecord_frame (s : State) (g : GroupNo) (r : Record) :
    ∃ qs gs, s.takeRecord g r = { s with queues := qs, groups := gs } ∨
      s.takeRecord g r =
        { s with queues := qs, groups := gs, errFlags := s.errFlags ||| ErrFlag.loss.bit } := by
  unfold State.takeRecord
  split
  · obtain ⟨qs, gs, h⟩ := State.admissionNotice_frame
      (s.setQueue g ((s.queues.get g).enter (s.groups.get g).presented.isSome r)) g
      (s.queues.get g).records.isEmpty
    exact ⟨qs, gs, Or.inl h⟩
  · split
    · exact ⟨_, _, Or.inr rfl⟩
    · exact s.dropOldest_frame g r

/-- Taking a claim changes the claims, the queues, the groups and the error flags; nothing else. -/
theorem State.takeClaim_frame (s : State) :
    ∃ cs qs gs fl,
      s.takeClaim = { s with claims := cs, queues := qs, groups := gs, errFlags := fl } := by
  unfold State.takeClaim
  split
  · exact ⟨s.claims, s.queues, s.groups, s.errFlags, rfl⟩
  · next c cs _ =>
    obtain ⟨qs, gs, h | h⟩ := State.takeRecord_frame { s with claims := cs } c.source.queue c.record
    · exact ⟨_, _, _, _, h⟩
    · exact ⟨_, _, _, _, h⟩

/-- Taking a claim removes it and offers none. -/
theorem State.takeClaim_claims (s : State) : s.takeClaim.claims = s.claims.tail := by
  unfold State.takeClaim
  split
  · next h => simp [h]
  · next c cs h =>
    obtain ⟨qs, gs, h' | h'⟩ := State.takeRecord_frame { s with claims := cs } c.source.queue c.record
    · rw [h', h]; rfl
    · rw [h', h]; rfl

theorem State.takeClaims_frame (n : Nat) (s : State) :
    ∃ cs qs gs fl,
      State.takeClaims n s = { s with claims := cs, queues := qs, groups := gs, errFlags := fl } := by
  induction n generalizing s with
  | zero => exact ⟨s.claims, s.queues, s.groups, s.errFlags, rfl⟩
  | succ n ih =>
    obtain ⟨_, _, _, _, h1⟩ := s.takeClaim_frame
    obtain ⟨cs, qs, gs, fl, h2⟩ := ih s.takeClaim
    rw [h1] at h2
    exact ⟨cs, qs, gs, fl, by rw [State.takeClaims, h1, h2]⟩

/-- As many takings as claims wait leave none waiting. -/
theorem State.takeClaims_all (s : State) : (State.takeClaims s.claims.length s).claims = [] := by
  suffices h : ∀ n (t : State), t.claims.length = n → (State.takeClaims n t).claims = [] from h _ s rfl
  intro n
  induction n with
  | zero => exact fun t h => List.length_eq_zero_iff.1 h
  | succ n ih =>
    intro t h
    exact ih t.takeClaim (by rw [State.takeClaim_claims, List.length_tail, h]; rfl)

theorem State.takeEventClaims_frame (n : Nat) (s : State) :
    ∃ cs qs gs fl, State.takeEventClaims n s =
      { s with claims := cs, queues := qs, groups := gs, errFlags := fl } := by
  induction n generalizing s with
  | zero => exact ⟨s.claims, s.queues, s.groups, s.errFlags, rfl⟩
  | succ n ih =>
    unfold State.takeEventClaims
    split
    · obtain ⟨_, _, _, _, h1⟩ := s.takeClaim_frame
      obtain ⟨cs, qs, gs, fl, h2⟩ := ih s.takeClaim
      rw [h1] at h2
      exact ⟨cs, qs, gs, fl, by rw [h1, h2]⟩
    · exact ⟨s.claims, s.queues, s.groups, s.errFlags, rfl⟩

/-- What a host access settles first: the claims, the queues, the groups and the error flags may change;
nothing else. -/
theorem State.settled_frame (s : State) :
    ∃ cs qs gs fl,
      s.settled = { s with claims := cs, queues := qs, groups := gs, errFlags := fl } :=
  State.takeEventClaims_frame _ s

@[simp] theorem State.settled_inReset (s : State) : s.settled.inReset = s.inReset := by
  obtain ⟨_, _, _, _, h⟩ := s.settled_frame; rw [h]
@[simp] theorem State.settled_frzn (s : State) : s.settled.frzn = s.frzn := by
  obtain ⟨_, _, _, _, h⟩ := s.settled_frame; rw [h]
@[simp] theorem State.settled_readData (s : State) : s.settled.readData = s.readData := by
  obtain ⟨_, _, _, _, h⟩ := s.settled_frame; rw [h]
@[simp] theorem State.settled_tb (s : State) : s.settled.tb = s.tb := by
  obtain ⟨_, _, _, _, h⟩ := s.settled_frame; rw [h]
@[simp] theorem State.settled_lines (s : State) : s.settled.lines = s.lines := by
  obtain ⟨_, _, _, _, h⟩ := s.settled_frame; rw [h]
@[simp] theorem State.settled_wsel (s : State) : s.settled.wsel = s.wsel := by
  obtain ⟨_, _, _, _, h⟩ := s.settled_frame; rw [h]
@[simp] theorem State.settled_outputs (s : State) : s.settled.outputs = s.outputs := by
  obtain ⟨_, _, _, _, h⟩ := s.settled_frame; rw [h]
@[simp] theorem State.settled_causes (s : State) : s.settled.causes = s.causes := by
  obtain ⟨_, _, _, _, h⟩ := s.settled_frame; rw [h]
@[simp] theorem State.settled_slots (s : State) : s.settled.slots = s.slots := by
  obtain ⟨_, _, _, _, h⟩ := s.settled_frame; rw [h]
@[simp] theorem State.settled_sched (s : State) : s.settled.sched = s.sched := by
  obtain ⟨_, _, _, _, h⟩ := s.settled_frame; rw [h]
@[simp] theorem State.settled_mode (s : State) : s.settled.mode = s.mode := by
  obtain ⟨_, _, _, _, h⟩ := s.settled_frame; rw [h]
@[simp] theorem State.settled_errEnable (s : State) : s.settled.errEnable = s.errEnable := by
  obtain ⟨_, _, _, _, h⟩ := s.settled_frame; rw [h]
@[simp] theorem State.settled_refCode (s : State) : s.settled.refCode = s.refCode := by
  obtain ⟨_, _, _, _, h⟩ := s.settled_frame; rw [h]
@[simp] theorem State.settled_refAddr (s : State) : s.settled.refAddr = s.refAddr := by
  obtain ⟨_, _, _, _, h⟩ := s.settled_frame; rw [h]
@[simp] theorem State.settled_tsel (s : State) : s.settled.tsel = s.tsel := by
  obtain ⟨_, _, _, _, h⟩ := s.settled_frame; rw [h]
@[simp] theorem State.settled_tidx (s : State) : s.settled.tidx = s.tidx := by
  obtain ⟨_, _, _, _, h⟩ := s.settled_frame; rw [h]
@[simp] theorem State.settled_tdata (s : State) : s.settled.tdata = s.tdata := by
  obtain ⟨_, _, _, _, h⟩ := s.settled_frame; rw [h]
@[simp] theorem State.settled_drawn (s : State) : s.settled.drawn = s.drawn := by
  obtain ⟨_, _, _, _, h⟩ := s.settled_frame; rw [h]
@[simp] theorem State.settled_pending (s : State) : s.settled.pending = s.pending := by
  obtain ⟨_, _, _, _, h⟩ := s.settled_frame; rw [h]

/-- With no claim of a happening that is not a tick waiting, there is nothing to settle. -/
theorem State.settled_eq (s : State) (h : s.eventClaimWaits = false) : s.settled = s := by
  unfold State.settled
  cases s.claims.length with
  | zero => rfl
  | succ n => simp [State.takeEventClaims, h]

/-- After the settling no claim of a happening that is not a tick waits (R55). -/
theorem State.settled_settles (s : State) : s.settled.eventClaimWaits = false := by
  suffices h : ∀ n (t : State), t.claims.length = n →
      (State.takeEventClaims n t).eventClaimWaits = false from h _ s rfl
  intro n
  induction n with
  | zero =>
    intro t h
    simp [State.takeEventClaims, State.eventClaimWaits, List.length_eq_zero_iff.1 h]
  | succ n ih =>
    intro t h
    unfold State.takeEventClaims
    split
    · exact ih t.takeClaim (by rw [State.takeClaim_claims, List.length_tail, h]; rfl)
    · next hw => simpa using hw

/-! ### Host writes (R181, R187) -/

/-- A host write: without effect in reset, otherwise accepted, or refused whole and recorded. -/
theorem hostWrite_cases (a : Addr) (op : State → Except RefCode State) (s : State) :
    (s.inReset = true ∧ hostWrite a op s = .next s) ∨
    (s.inReset = false ∧ ∃ t, op s.settled = .ok t ∧ hostWrite a op s = .next t) ∨
    (s.inReset = false ∧ ∃ c, op s.settled = .error c ∧ hostWrite a op s = .next (s.settled.refuse c a)) := by
  unfold hostWrite
  cases h : s.inReset
  · cases h' : op s.settled with
    | ok t => exact Or.inr (Or.inl ⟨rfl, t, rfl, by simp⟩)
    | error c => exact Or.inr (Or.inr ⟨rfl, c, rfl, by simp⟩)
  · exact Or.inl ⟨rfl, by simp⟩

theorem hostWrite_ok {a : Addr} {op : State → Except RefCode State} {s t : State}
    (h : s.inReset = false) (hop : op s.settled = .ok t) : hostWrite a op s = .next t := by
  simp [hostWrite, h, hop]

theorem hostWrite_error {a : Addr} {op : State → Except RefCode State} {s : State} {c : RefCode}
    (h : s.inReset = false) (hop : op s.settled = .error c) :
    hostWrite a op s = .next (s.settled.refuse c a) := by
  simp [hostWrite, h, hop]

/-! ### Counting a tick and the age timers -/

theorem State.ageRunsOut_frame (s : State) (g : GroupNo) :
    ∃ gs, s.ageRunsOut g = { s with groups := gs } := by
  unfold State.ageRunsOut State.whenTickDue State.whenDue
  split
  · exact ⟨_, rfl⟩
  · exact ⟨s.groups, rfl⟩

/-! ### Acknowledge, flush, delivery enables -/

theorem State.freePresented_frame (s : State) (g : GroupNo) :
    ∃ qs gs, s.freePresented g = { s with queues := qs, groups := gs } := by
  unfold State.freePresented
  simp only
  split <;> exact ⟨_, _, rfl⟩

theorem State.flushGroup_frame (s : State) (g : GroupNo) :
    ∃ qs gs, s.flushGroup g = { s with queues := qs, groups := gs } := by
  unfold State.flushGroup
  split
  · exact ⟨s.queues, s.groups, rfl⟩
  · exact ⟨_, _, rfl⟩

theorem State.setDeliver_frame (s : State) (g : GroupNo) (b : Bool) :
    ∃ qs gs, s.setDeliver g b = { s with queues := qs, groups := gs } := by
  unfold State.setDeliver
  simp only
  split
  · exact ⟨s.queues, s.groups, rfl⟩
  · split <;> exact ⟨_, _, rfl⟩

end Sys2Proof.Machine
end

