-- ==== Sys2Proof/Laws/Units.lean ====
section
/-!
SUPPORT. What each operation of the Output Stage, the Reflex Unit, the Schedule Unit, the Input Unit and
the Timebase can change: one lemma per operation, naming every field it may write.
-/
namespace Sys2Proof.Machine

/-! ### Output Stage -/

theorem State.hostClaim_frame (s : State) (v : Bool) (half : Fin 2) (w : Word) :
    ∃ os fl, s.hostClaim v half w = { s with outputs := os, errFlags := fl } := by
  unfold State.hostClaim State.setFlagIf
  simp only
  split <;> exact ⟨_, _, rfl⟩

theorem State.scheduleClaim_frame (s : State) (a : Action) (m : BitVec 32) :
    ∃ os fl, s.scheduleClaim a m = { s with outputs := os, errFlags := fl } := by
  unfold State.scheduleClaim State.setFlagIf
  simp only
  split <;> exact ⟨_, _, rfl⟩

theorem State.reevaluate_frame (s : State) : ∃ os, s.reevaluate = { s with outputs := os } := ⟨_, rfl⟩

/-- After a re-evaluation a REFLEX-owned line has the value of R93 and any other is as it was. -/
theorem State.reevaluate_get (s : State) (n : OutNo) :
    s.reevaluate.outputs.get n =
      if (s.outputs.get n).owner == .reflex then
        { s.outputs.get n with claimed := s.reflexValue n (s.outputs.get n).safe }
      else s.outputs.get n := by
  simp [State.reevaluate]

theorem State.assertedOn_iff (s : State) (n : OutNo) :
    s.assertedOn n = true ↔
      ∃ i, (s.slots.get i).asserting = true ∧ covers (s.slots.get i).config.mask n = true := by
  simp [State.assertedOn, anyIdx_iff]

theorem State.beginAssert_frame (s : State) (m : BitVec 32) :
    ∃ os fl, s.beginAssert m = { s with outputs := os, errFlags := fl } := by
  unfold State.beginAssert State.setFlagIf
  split <;> exact ⟨_, _, rfl⟩

theorem State.addCause_frame (s : State) (c : Cause) (b : Bool) (st : Stamp) :
    ∃ cs cl fl, s.addCause c b st = { s with causes := cs, claims := cl, errFlags := fl } := by
  unfold State.addCause
  simp only
  split <;> exact ⟨_, _, _, rfl⟩

theorem State.frznFalls_frame (s : State) :
    ∃ f cs cl fl, s.frznFalls = { s with frzn := f, causes := cs, claims := cl, errFlags := fl } := by
  unfold State.frznFalls
  split
  · split
    · exact ⟨false, s.causes, s.claims, s.errFlags, rfl⟩
    · obtain ⟨cs, cl, fl, h⟩ := State.addCause_frame { s with frzn := false } .pin false s.eventStamp
      exact ⟨_, _, _, _, h⟩
  · exact ⟨s.frzn, s.causes, s.claims, s.errFlags, rfl⟩

/-! ### Reflex Unit -/

theorem State.reportReflex_frame (s : State) (i : SlotNo) (b : Bool) (r : Record) :
    ∃ cl, s.reportReflex i b r = { s with claims := cl } := by
  unfold State.reportReflex
  split
  · exact ⟨_, rfl⟩
  · exact ⟨s.claims, rfl⟩

/-- `t` differs from `s` in the slots, the output lines, the claims and the error flags at most. -/
def ReflexOnly (s t : State) : Prop :=
  ∃ xs os cl fl, t = { s with slots := xs, outputs := os, claims := cl, errFlags := fl }

theorem ReflexOnly.refl (s : State) : ReflexOnly s s :=
  ⟨s.slots, s.outputs, s.claims, s.errFlags, rfl⟩

theorem ReflexOnly.trans {s t u : State} (h : ReflexOnly s t) (k : ReflexOnly t u) : ReflexOnly s u := by
  obtain ⟨_, _, _, _, rfl⟩ := h
  obtain ⟨xs, os, cl, fl, rfl⟩ := k
  exact ⟨xs, os, cl, fl, rfl⟩

theorem reflexOnly_setSlot (s : State) (i : SlotNo) (x : Slot) : ReflexOnly s (s.setSlot i x) :=
  ⟨_, s.outputs, s.claims, s.errFlags, rfl⟩

theorem reflexOnly_reevaluate (s : State) : ReflexOnly s s.reevaluate :=
  ⟨s.slots, _, s.claims, s.errFlags, rfl⟩

theorem reflexOnly_beginAssert (s : State) (m : BitVec 32) : ReflexOnly s (s.beginAssert m) := by
  obtain ⟨os, fl, h⟩ := s.beginAssert_frame m
  exact ⟨s.slots, os, s.claims, fl, h⟩

theorem reflexOnly_reportReflex (s : State) (i : SlotNo) (b : Bool) (r : Record) :
    ReflexOnly s (s.reportReflex i b r) := by
  obtain ⟨cl, h⟩ := s.reportReflex_frame i b r
  exact ⟨s.slots, s.outputs, cl, s.errFlags, h⟩

theorem reflexOnly_assertSlot (s : State) (i : SlotNo) : ReflexOnly s (s.assertSlot i) :=
  ((reflexOnly_setSlot _ _ _).trans (reflexOnly_beginAssert _ _)).trans (reflexOnly_reportReflex _ _ _ _)

theorem reflexOnly_completePulse (s : State) (i : SlotNo) (c : EndCause) (b : Bool) (st : Stamp) :
    ReflexOnly s (s.completePulse i c b st) :=
  ((reflexOnly_setSlot _ _ _).trans (reflexOnly_reevaluate _)).trans (reflexOnly_reportReflex _ _ _ _)

theorem reflexOnly_disarmSlot (s : State) (i : SlotNo) (c : EndCause) : ReflexOnly s (s.disarmSlot i c) := by
  unfold State.disarmSlot
  simp only
  split
  · exact ((reflexOnly_setSlot _ _ _).trans (reflexOnly_reevaluate _)).trans (reflexOnly_reportReflex _ _ _ _)
  · exact reflexOnly_setSlot _ _ _

theorem reflexOnly_restartPulse (s : State) (i : SlotNo) (b : Bool) : ReflexOnly s (s.restartPulse i b) := by
  unfold State.restartPulse
  simp only
  have h := (reflexOnly_setSlot s i { s.slots.get i with edge := some b }).trans
    (reflexOnly_reportReflex _ i true (reflexOffRecord i (s.slots.get i) .retriggered s.tickStamp))
  split
  · exact h.trans (reflexOnly_assertSlot _ _)
  · exact (h.trans (reflexOnly_setSlot _ _ _)).trans (reflexOnly_reevaluate _)

theorem reflexOnly_triggerSlot (s : State) (i : SlotNo) (b : Bool) : ReflexOnly s (s.triggerSlot i b) := by
  unfold State.triggerSlot
  simp only
  split
  · exact ReflexOnly.refl s
  · split
    · exact (reflexOnly_setSlot _ _ _).trans (reflexOnly_assertSlot _ _)
    · exact (reflexOnly_setSlot _ _ _).trans (reflexOnly_setSlot _ _ _)
  · split
    · exact reflexOnly_setSlot _ _ _
    · exact ReflexOnly.refl s
    · exact ReflexOnly.refl s
  · split
    · exact ReflexOnly.refl s
    · exact reflexOnly_setSlot _ _ _
    · exact reflexOnly_restartPulse _ _ _
  · exact ReflexOnly.refl s

theorem reflexOnly_passChange (s : State) (n : LineNo) (b : Bool) (f : LineNo → Bool) :
    ReflexOnly s (s.passChange n b f) := by
  unfold State.passChange
  refine forEach_keeps (P := ReflexOnly s) (fun i t ht => ?_) (ReflexOnly.refl s)
  split
  · exact ht.trans (reflexOnly_triggerSlot _ _ _)
  · exact ht

/-- What is done to one slot leaves every other slot alone. -/
theorem State.triggerSlot_other (s : State) (i j : SlotNo) (b : Bool) (h : j ≠ i) :
    (s.triggerSlot i b).slots.get j = s.slots.get j := by
  have hr : ∀ (t : State) (k : SlotNo) c r, (t.reportReflex k c r).slots = t.slots := by
    intro t k c r
    obtain ⟨_, e⟩ := t.reportReflex_frame k c r
    rw [e]
  have hb : ∀ (t : State) m, (t.beginAssert m).slots = t.slots := by
    intro t m
    obtain ⟨_, _, e⟩ := t.beginAssert_frame m
    rw [e]
  have ha : ∀ t : State, (t.assertSlot i).slots.get j = t.slots.get j := by
    intro t
    simp only [State.assertSlot, hr, hb, State.setSlot_slots, Bank.get_set_ne _ h]
  have hs : ∀ (t : State) x, (t.setSlot i x).slots.get j = t.slots.get j := by
    intro t x
    rw [State.setSlot_slots, Bank.get_set_ne _ h]
  unfold State.triggerSlot
  simp only
  split
  · rfl
  · split
    · rw [ha, hs]
    · rw [hs, hs]
  · split
    · rw [hs]
    · rfl
    · rfl
  · split
    · rfl
    · rw [hs]
    · unfold State.restartPulse
      simp only
      split
      · rw [ha, hr, hs]
      · simp only [State.reevaluate]
        rw [hs, hr, hs]
  · rfl

/-! ### Input Unit -/

/-- `t` differs from `s` in the lines, the slots, the output lines, the claims, the error flags and the
count of open values drawn at most. -/
def InputOnly (s t : State) : Prop :=
  ∃ ls xs os cl fl d,
    t = { s with lines := ls, slots := xs, outputs := os, claims := cl, errFlags := fl, drawn := d }

theorem InputOnly.refl (s : State) : InputOnly s s :=
  ⟨s.lines, s.slots, s.outputs, s.claims, s.errFlags, s.drawn, rfl⟩

theorem InputOnly.trans {s t u : State} (h : InputOnly s t) (k : InputOnly t u) : InputOnly s u := by
  obtain ⟨_, _, _, _, _, _, rfl⟩ := h
  obtain ⟨ls, xs, os, cl, fl, d, rfl⟩ := k
  exact ⟨ls, xs, os, cl, fl, d, rfl⟩

theorem ReflexOnly.input {s t : State} (h : ReflexOnly s t) : InputOnly s t := by
  obtain ⟨xs, os, cl, fl, rfl⟩ := h
  exact ⟨s.lines, xs, os, cl, fl, s.drawn, rfl⟩

theorem inputOnly_setLine (s : State) (n : LineNo) (l : Line) : InputOnly s (s.setLine n l) :=
  ⟨_, s.slots, s.outputs, s.claims, s.errFlags, s.drawn, rfl⟩

theorem inputOnly_offer (s : State) (x : ClaimSource) (b : Bool) (r : Record) : InputOnly s (s.offer x b r) :=
  ⟨s.lines, s.slots, s.outputs, _, s.errFlags, s.drawn, rfl⟩

theorem State.drawIf_frame (s : State) (c : Bool) : ∃ d, s.drawIf c = { s with drawn := d } := by
  cases c
  · exact ⟨s.drawn, rfl⟩
  · exact ⟨s.drawn + 1, rfl⟩

/-- Recording a change writes its line, its claim and, where the interval is open, the count of draws. -/
theorem State.recordEdge_frame (s : State) (n : LineNo) (b : Bool) (o : Onset) (w : Option ChatterWindow) :
    ∃ ls cl d, s.recordEdge n b o w = { s with lines := ls, claims := cl, drawn := d } := by
  obtain ⟨d, h⟩ := State.drawIf_frame
    ((s.setLine n (((s.lines.get n).recorded o w).qualified b)).offer (.input n) true
      (edgeRecord n (s.lines.get n) b o (Config.openInterval s.drawn))) (s.lines.get n).intervalOpen
  exact ⟨_, _, d, h⟩

theorem inputOnly_recordEdge (s : State) (n : LineNo) (b : Bool) (o : Onset) (w : Option ChatterWindow) :
    InputOnly s (s.recordEdge n b o w) := by
  obtain ⟨ls, cl, d, h⟩ := s.recordEdge_frame n b o w
  exact ⟨ls, s.slots, s.outputs, cl, s.errFlags, d, h⟩

theorem inputOnly_handleChange (s : State) (n : LineNo) (b : Bool) (o : Onset) :
    InputOnly s (s.handleChange n b o) := by
  unfold State.handleChange
  simp only
  split
  · split
    · split
      · exact (inputOnly_recordEdge _ _ _ _ _).trans (reflexOnly_passChange _ _ _ _).input
      · exact (inputOnly_setLine _ _ _).trans (inputOnly_offer _ _ _ _)
    · exact (inputOnly_setLine _ _ _).trans (reflexOnly_passChange _ _ _ _).input
  · exact inputOnly_setLine _ _ _
  · exact inputOnly_setLine _ _ _
  · exact inputOnly_setLine _ _ _

theorem inputOnly_qualify (s : State) (n : LineNo) : InputOnly s (s.qualify n) := by
  unfold State.qualify State.whenTickDue State.whenDue
  split
  · beta_reduce
    split
    · exact InputOnly.refl s
    · exact inputOnly_handleChange _ _ _ _
  · exact InputOnly.refl s

theorem inputOnly_releaseIfDue (s : State) (n : LineNo) : InputOnly s (s.releaseIfDue n) := by
  unfold State.releaseIfDue State.whenTickDue State.whenDue
  split
  · unfold State.releaseLine
    simp only
    split
    · exact (inputOnly_setLine _ _ _).trans (inputOnly_offer _ _ _ _)
    · exact ((inputOnly_setLine _ _ _).trans (inputOnly_offer _ _ _ _)).trans (inputOnly_offer _ _ _ _)
  · exact InputOnly.refl s

/-! ### Schedule Unit -/

/-- `t` differs from `s` in the output lines, the Schedule Unit, the claims and the error flags at most. -/
def ScheduleOnly (s t : State) : Prop :=
  ∃ os sc cl fl, t = { s with outputs := os, sched := sc, claims := cl, errFlags := fl }

theorem ScheduleOnly.refl (s : State) : ScheduleOnly s s :=
  ⟨s.outputs, s.sched, s.claims, s.errFlags, rfl⟩

theorem ScheduleOnly.trans {s t u : State} (h : ScheduleOnly s t) (k : ScheduleOnly t u) :
    ScheduleOnly s u := by
  obtain ⟨_, _, _, _, rfl⟩ := h
  obtain ⟨os, sc, cl, fl, rfl⟩ := k
  exact ⟨os, sc, cl, fl, rfl⟩

theorem scheduleOnly_setSched (s : State) (x : Schedule) : ScheduleOnly s (s.setSched x) :=
  ⟨s.outputs, _, s.claims, s.errFlags, rfl⟩

theorem scheduleOnly_offer (s : State) (x : ClaimSource) (b : Bool) (r : Record) :
    ScheduleOnly s (s.offer x b r) := ⟨s.outputs, s.sched, _, s.errFlags, rfl⟩

theorem scheduleOnly_reenter (s : State) (e : Option Entry) : ScheduleOnly s (s.reenter e) := by
  unfold State.reenter
  split
  · exact ScheduleOnly.refl s
  · exact scheduleOnly_setSched _ _

theorem scheduleOnly_reportAction (s : State) (e : Entry) (b : Bool) (d : Word) (st : Stamp) :
    ScheduleOnly s (s.reportAction e b d st) := by
  unfold State.reportAction
  split
  · exact scheduleOnly_offer _ _ _ _
  · exact ScheduleOnly.refl s

theorem scheduleOnly_fireEntry (s : State) (e : Entry) (late b : Bool) (st : Stamp) :
    ScheduleOnly s (s.fireEntry e late b st) := by
  unfold State.fireEntry
  simp only
  refine (ScheduleOnly.trans ?_ (scheduleOnly_reenter _ _)).trans (scheduleOnly_reportAction _ _ _ _ _)
  obtain ⟨os, fl, h⟩ := s.scheduleClaim_frame e.action e.mask
  exact ⟨os, s.sched, s.claims, fl, h⟩

theorem scheduleOnly_skipEntry (s : State) (e : Entry) (st : Stamp) :
    ScheduleOnly s (s.skipEntry e st) :=
  (scheduleOnly_reenter _ _).trans (scheduleOnly_reportAction _ _ _ _ _)

theorem scheduleOnly_fireHead (s : State) : ScheduleOnly s s.fireHead := by
  unfold State.fireHead State.whenTickDue State.whenDue
  split
  · beta_reduce
    split
    · exact ScheduleOnly.refl s
    · exact (scheduleOnly_setSched _ _).trans (scheduleOnly_fireEntry _ _ _ _ _)
  · exact ScheduleOnly.refl s

theorem scheduleOnly_fireHeads (n : Nat) (s : State) : ScheduleOnly s (State.fireHeads n s) := by
  induction n generalizing s with
  | zero => exact ScheduleOnly.refl s
  | succ n ih =>
    exact (scheduleOnly_fireHead s).trans (ih _)

theorem scheduleOnly_finishCommit (s : State) : ScheduleOnly s s.finishCommit := by
  unfold State.finishCommit State.setFlagIf
  split
  · exact ⟨s.outputs, _, _, _, rfl⟩
  · exact ⟨s.outputs, _, _, s.errFlags, rfl⟩

theorem scheduleOnly_startApplying (s : State) : ScheduleOnly s s.startApplying := by
  unfold State.startApplying
  simp only
  split
  · exact (scheduleOnly_setSched _ _).trans (scheduleOnly_finishCommit _)
  · exact scheduleOnly_setSched _ _

theorem scheduleOnly_commitReached (s : State) : ScheduleOnly s s.commitReached := by
  unfold State.commitReached State.whenTickDue State.whenDue
  split
  · exact scheduleOnly_startApplying s
  · exact ScheduleOnly.refl s

/-! ### Timebase -/

/-- `t` differs from `s` in the Timebase, the claims, the freeze causes and the error flags at most. -/
def TimebaseOnly (s t : State) : Prop :=
  ∃ tb cl cs fl, t = { s with tb := tb, claims := cl, causes := cs, errFlags := fl }

theorem TimebaseOnly.refl (s : State) : TimebaseOnly s s :=
  ⟨s.tb, s.claims, s.causes, s.errFlags, rfl⟩

theorem TimebaseOnly.trans {s t u : State} (h : TimebaseOnly s t) (k : TimebaseOnly t u) :
    TimebaseOnly s u := by
  obtain ⟨_, _, _, _, rfl⟩ := h
  obtain ⟨tb, cl, cs, fl, rfl⟩ := k
  exact ⟨tb, cl, cs, fl, rfl⟩

theorem timebaseOnly_setTb (s : State) (t : Timebase) : TimebaseOnly s (s.setTb t) :=
  ⟨_, s.claims, s.causes, s.errFlags, rfl⟩

/-- Offering the records of a Timebase happening changes the claims only. -/
theorem foldl_offer_frame (es : List SyncEvent) (s : State) :
    ∃ cl, es.foldl (fun t e => t.offer .timebase true (syncRecord e t.tickStamp)) s
      = { s with claims := cl } := by
  induction es generalizing s with
  | nil => exact ⟨s.claims, rfl⟩
  | cons e es ih =>
    obtain ⟨cl, h⟩ := ih (s.offer .timebase true (syncRecord e s.tickStamp))
    exact ⟨cl, h⟩

/-- The Timebase stands as its happening answered. -/
theorem State.timebaseEffect_frame (s : State) (x : TbEffect) :
    ∃ cl cs fl, s.timebaseEffect x =
      { s with tb := x.tb, claims := cl, causes := cs, errFlags := fl } := by
  unfold State.timebaseEffect
  simp only
  obtain ⟨cl, h⟩ := foldl_offer_frame x.events (s.setTb x.tb)
  rw [h]
  unfold State.setFlagIf
  split <;> split <;>
    first
    | exact ⟨cl, s.causes, _, rfl⟩
    | (rename_i h1 h2
       obtain ⟨cs, cl', fl, h'⟩ := State.addCause_frame
         ({ s.setTb x.tb with claims := cl }.setFlag .sync) .holdover true
         { ({ s.setTb x.tb with claims := cl }.setFlag .sync).tickStamp with unsync := true }
       exact ⟨cl', cs, fl, h'⟩)
    | (rename_i h1 h2
       obtain ⟨cs, cl', fl, h'⟩ := State.addCause_frame
         { s.setTb x.tb with claims := cl } .holdover true
         { ({ s.setTb x.tb with claims := cl }.tickStamp) with unsync := true }
       exact ⟨cl', cs, fl, h'⟩)

theorem timebaseOnly_missExpiry (s : State) : TimebaseOnly s s.missExpiry := by
  unfold State.missExpiry State.whenDue
  split
  · obtain ⟨cl, cs, fl, h⟩ := s.timebaseEffect_frame
      { s.tb.expire with tb := { s.tb.expire.tb with tickState := s.tb.expire.tb.state } }
    exact ⟨_, cl, cs, fl, h⟩
  · exact TimebaseOnly.refl s

theorem timebaseOnly_slewAdjust (s : State) : TimebaseOnly s s.slewAdjust := by
  unfold State.slewAdjust State.whenTickDue State.whenDue
  split
  · exact timebaseOnly_setTb _ _
  · exact TimebaseOnly.refl s

/-- Taking an expiry that is not due changes nothing. -/
theorem State.missExpiry_eq (s : State) (h : s.tb.expiryDue = false) : s.missExpiry = s := by
  simp [State.missExpiry, h]

end Sys2Proof.Machine
end

