-- ==== Sys2Proof/Laws/Tick.lean ====
section
/-!
SUPPORT. What TICK can do: the completion of the tick before, which after the miss timer leaves the Timebase
as it is, and the tick itself.
-/
namespace Sys2Proof.Machine

/-! ### Timebase -/

/-- The Timebase after the adjustment of the coming tick, where one falls at it (R13): only the pending slew
and the advance change, and the tick's advance and what it leaves pending are those of `comingAdvance` and
`comingSlew`. -/
theorem Timebase.adjusted (t : Timebase) :
    ∃ sl, (if t.slewDue then t.adjust else t) = { t with slew := sl, advance := t.comingAdvance } ∧
      (if t.comingAdvance = .normal then sl.map (fun x => { x with next := x.next - 1 }) else sl) =
        t.comingSlew := by
  obtain ⟨st, co, ep, td, pe, tol, sl, ml, bl, se, sa, fh, mc, bc, mr, br, slew, ad, mt, le, la, tb, sy,
    tt, te, ts⟩ := t
  rcases slew with _ | ⟨a, l, sp, n⟩ <;> rcases ad with _ | _ | _ <;>
    simp [Timebase.slewDue, Timebase.adjust, Timebase.comingAdvance, Timebase.comingSlew]
  by_cases hn : n ≤ 1
  · cases a <;> simp [hn]
  · simp [hn]

theorem State.slewAdjust_eq (s : State) (h : s.tb.state ≠ .stopped) :
    s.slewAdjust = { s with tb := if s.tb.slewDue then s.tb.adjust else s.tb } := by
  simp only [State.slewAdjust, State.whenTickDue, State.whenDue, h, ne_eq, not_false_eq_true, decide_true, Bool.true_and]
  split <;> rfl

/-- The Timebase after the miss timer's expiry, where it is due (R17, R18). -/
theorem State.missExpiry_tb (s : State) :
    s.missExpiry.tb =
      if s.tb.expiryDue then { s.tb.expire.tb with tickState := s.tb.expire.tb.state } else s.tb := by
  unfold State.missExpiry State.whenDue
  split
  · obtain ⟨_, _, _, h⟩ := State.timebaseEffect_frame s
      { s.tb.expire with tb := { s.tb.expire.tb with tickState := s.tb.expire.tb.state } }
    simp only
    rw [h]
  · rfl

/-! ### Completing the tick before (assumption log 2) -/

/-- What the completion of a tick leaves, once the miss timer's expiry is taken: the Timebase, the freeze
causes, and all that only the host or a pin sets. -/
def CompletionOnly (s t : State) : Prop :=
  ∃ ls cl qs gs os xs sc fl d,
    t = { s with
      lines := ls, claims := cl, queues := qs, groups := gs, outputs := os, slots := xs, sched := sc
      errFlags := fl, drawn := d }

theorem CompletionOnly.refl (s : State) : CompletionOnly s s :=
  ⟨s.lines, s.claims, s.queues, s.groups, s.outputs, s.slots, s.sched, s.errFlags, s.drawn, rfl⟩

theorem CompletionOnly.trans {s t u : State} (h : CompletionOnly s t) (k : CompletionOnly t u) :
    CompletionOnly s u := by
  obtain ⟨_, _, _, _, _, _, _, _, _, rfl⟩ := h
  obtain ⟨ls, cl, qs, gs, os, xs, sc, fl, d, rfl⟩ := k
  exact ⟨ls, cl, qs, gs, os, xs, sc, fl, d, rfl⟩

theorem InputOnly.completion {s t : State} (h : InputOnly s t) : CompletionOnly s t := by
  obtain ⟨ls, xs, os, cl, fl, d, rfl⟩ := h
  exact ⟨ls, cl, s.queues, s.groups, os, xs, s.sched, fl, d, rfl⟩

theorem ReflexOnly.completion {s t : State} (h : ReflexOnly s t) : CompletionOnly s t :=
  h.input.completion

theorem ScheduleOnly.completion {s t : State} (h : ScheduleOnly s t) : CompletionOnly s t := by
  obtain ⟨os, sc, cl, fl, rfl⟩ := h
  exact ⟨s.lines, cl, s.queues, s.groups, os, s.slots, sc, fl, s.drawn, rfl⟩

theorem completionOnly_forEach {n : Nat} {f : Fin n → State → State}
    (h : ∀ i t, CompletionOnly t (f i t)) (s : State) : CompletionOnly s (forEach f s) :=
  forEach_keeps (P := CompletionOnly s) (fun i t ht => ht.trans (h i t)) (CompletionOnly.refl s)

theorem reflexOnly_delayOut (s : State) (i : SlotNo) : ReflexOnly s (s.delayOut i) := by
  unfold State.delayOut State.whenTickDue State.whenDue
  split
  · exact reflexOnly_assertSlot _ _
  · exact ReflexOnly.refl s

theorem reflexOnly_widthOut (s : State) (i : SlotNo) : ReflexOnly s (s.widthOut i) := by
  unfold State.widthOut State.whenTickDue State.whenDue
  split
  · exact reflexOnly_completePulse _ _ _ _ _
  · exact ReflexOnly.refl s

theorem completionOnly_ageRunsOut (s : State) (g : GroupNo) : CompletionOnly s (s.ageRunsOut g) := by
  unfold State.ageRunsOut State.whenTickDue State.whenDue
  split
  · exact ⟨s.lines, s.claims, s.queues, _, s.outputs, s.slots, s.sched, s.errFlags, s.drawn, rfl⟩
  · exact CompletionOnly.refl s

theorem completionOnly_takeClaims (n : Nat) (s : State) : CompletionOnly s (State.takeClaims n s) := by
  obtain ⟨cl, qs, gs, fl, h⟩ := State.takeClaims_frame n s
  exact ⟨s.lines, cl, qs, gs, s.outputs, s.slots, s.sched, fl, s.drawn, h⟩

/-- The capture's outstanding work is on the lines, the slots, the output lines and what they offer. -/
theorem inputOnly_finishCapture (s : State) : InputOnly s s.finishCapture := by
  have each {m : Nat} {f : Fin m → State → State} (h : ∀ i t, InputOnly t (f i t)) (t : State) :
      InputOnly t (forEach f t) :=
    forEach_keeps (P := InputOnly t) (fun i u hu => hu.trans (h i u)) (InputOnly.refl t)
  exact (((each (fun n t => inputOnly_qualify t n) _).trans
    (each (fun n t => inputOnly_releaseIfDue t n) _)).trans
    (each (fun i t => (reflexOnly_delayOut t i).input) _)).trans
    (each (fun i t => (reflexOnly_widthOut t i).input) _)

/-- After the miss timer's expiry the finish of a tick leaves the Timebase and the freeze causes. -/
theorem finishTick_frame (s : State) : CompletionOnly s.missExpiry s.finishTick :=
  (((inputOnly_finishCapture _).completion.trans (scheduleOnly_fireHeads _ _).completion).trans
    (scheduleOnly_commitReached _).completion).trans
    (completionOnly_forEach (fun g t => completionOnly_ageRunsOut t g) _)

/-- While the Timebase is STOPPED no tick has anything left to do (R1, R145). -/
theorem finishCapture_stopped {s : State} (h : s.tb.state = .stopped) : s.finishCapture = s := by
  have hq : forEach (fun n t => t.qualify n) s = s := forEach_id fun _ => State.whenTickDue_stopped h _ _
  have hr : forEach (fun n t => t.releaseIfDue n) s = s := forEach_id fun _ => State.whenTickDue_stopped h _ _
  have hd : forEach (fun i t => t.delayOut i) s = s := forEach_id fun _ => State.whenTickDue_stopped h _ _
  have hw : forEach (fun i t => t.widthOut i) s = s := forEach_id fun _ => State.whenTickDue_stopped h _ _
  simp only [State.finishCapture, hq, hr, hd, hw]

theorem fireHeads_stopped {s : State} (h : s.tb.state = .stopped) (n : Nat) : State.fireHeads n s = s := by
  induction n with
  | zero => rfl
  | succ n ih =>
    have : s.fireHead = s := State.whenTickDue_stopped h _ _
    simp only [State.fireHeads, this, ih]

theorem finishTick_stopped {s : State} (h : s.tb.state = .stopped) : s.finishTick = s := by
  have hm : s.missExpiry = s := State.missExpiry_eq s (by simp [Timebase.expiryDue, h])
  have hc : s.commitReached = s := State.whenTickDue_stopped h _ _
  have ha : forEach (fun g t => t.ageRunsOut g) s = s := forEach_id fun _ => State.whenTickDue_stopped h _ _
  simp only [State.finishTick, hm, finishCapture_stopped h, fireHeads_stopped h, hc, ha]

/-- After the miss timer's expiry the completion of a tick leaves the Timebase and the freeze causes. -/
theorem completeTick_frame (s : State) : CompletionOnly s.missExpiry s.completeTick :=
  (finishTick_frame s).trans (completionOnly_takeClaims _ _)

theorem finishTick_tb (s : State) : s.finishTick.tb = s.missExpiry.tb := by
  obtain ⟨_, _, _, _, _, _, _, _, _, h⟩ := finishTick_frame s
  rw [h]

/-- Every claim of the tick before is taken (R55). -/
theorem completeTick_claims (s : State) : s.completeTick.claims = [] := State.takeClaims_all _

theorem completeTick_tb (s : State) : s.completeTick.tb = s.missExpiry.tb := by
  obtain ⟨_, _, _, _, _, _, _, _, _, h⟩ := completeTick_frame s
  rw [h]

theorem completeTick_causes (s : State) : s.completeTick.causes = s.missExpiry.causes := by
  obtain ⟨_, _, _, _, _, _, _, _, _, h⟩ := completeTick_frame s
  rw [h]

/-! ### The tick (R1) -/

theorem stepEntries_frame (s : State) (v : Time) : ScheduleOnly s (s.stepEntries v) := by
  unfold State.stepEntries
  simp only
  have key : ∀ (l : List Active) (t : State), ScheduleOnly t (l.foldl (fun t a => t.takeAtStep v a.entry) t) := by
    intro l
    induction l with
    | nil => exact fun t => ScheduleOnly.refl t
    | cons a l ih =>
      intro t
      refine ScheduleOnly.trans ?_ (ih _)
      unfold State.takeAtStep
      beta_reduce
      split
      · exact scheduleOnly_fireEntry _ _ _ _ _
      · split
        · exact scheduleOnly_fireEntry _ _ _ _ _
        · exact scheduleOnly_skipEntry _ _ _
  exact (scheduleOnly_setSched _ _).trans (key _ _)

/-- With no step the blocks' work at a tick is on the lines, the slots' timers and the groups' age timers. -/
theorem blockTick_none (s : State) (samples : BitVec 64) (v : Time) :
    s.blockTick samples none v = ((s.tickLines samples none).countSlots.countAges) := rfl

/-- The blocks' work at a tick leaves the Timebase and the freeze causes. -/
theorem blockTick_frame (s : State) (samples : BitVec 64) (step : Option Time) (v : Time) :
    CompletionOnly s (s.blockTick samples step v) := by
  have h : CompletionOnly s ((s.tickLines samples step).countSlots.countAges) :=
    ⟨_, s.claims, s.queues, _, s.outputs, _, s.sched, s.errFlags, s.drawn, rfl⟩
  unfold State.blockTick
  simp only
  split
  · exact h
  · refine (h.trans ?_).trans (stepEntries_frame _ _).completion
    exact ⟨_, _, _, _, _, _, _, _, _, rfl⟩

/-- The Timebase after a tick is what its own part of the tick answers. -/
theorem makeTick_tb (s : State) (samples : BitVec 64) (sync first : Bool) :
    (s.makeTick samples sync first).tb = (s.slewAdjust.tb.tick sync first).effect.tb := by
  unfold State.makeTick
  simp only
  obtain ⟨_, _, _, _, _, _, _, _, _, h⟩ := blockTick_frame
    (s.slewAdjust.timebaseEffect (s.slewAdjust.tb.tick sync first).effect) samples
    (s.slewAdjust.tb.tick sync first).step (s.slewAdjust.tb.tick sync first).before
  rw [h]
  obtain ⟨_, _, _, k⟩ := State.timebaseEffect_frame s.slewAdjust (s.slewAdjust.tb.tick sync first).effect
  rw [k]

end Sys2Proof.Machine
end

