-- ==== Sys2Proof/Laws/Window.lean ====
section
/-!
SUPPORT. The address map both ways, and the outcome of a host write and of a REGISTER_WRITE as one equation.
-/
namespace Sys2Proof.Machine

/-- The register found at an address has that address. -/
theorem Register.addr_of_ofAddr {a : Addr} {r : Register} (h : Register.ofAddr a = some r) : r.addr = a := by
  simpa using List.find?_some h

/-- Every register is found at its address: no two share one. -/
theorem Register.ofAddr_addr (r : Register) : Register.ofAddr r.addr = some r := by
  have listed : ∀ r ∈ Register.all, Register.ofAddr r.addr = some r := by decide +kernel
  apply listed
  cases r <;> (try decide) <;> (rename_i i; revert i; decide)

/-- A host write to a part that is not held in reset (R177, R181). -/
theorem hostWrite_running (a : Addr) (op : State → Except RefCode State) (s : State)
    (h : s.inReset = false) :
    hostWrite a op s = .next (match op s.settled with
      | .ok t => t
      | .error c => s.settled.refuse c a) := by
  simp only [hostWrite, h]
  rfl

/-- REGISTER_WRITE to the address of a register (R187, R188). -/
theorem exec_registerWrite (r : Register) (w : Word) (s : State) (h : s.inReset = false) :
    exec (.registerWrite r.addr w) s = .next (match registerOp r w s.settled with
      | .ok t => t
      | .error c => s.settled.refuse c r.addr) := by
  simp only [exec, execRegisterWrite, hostWrite_running _ _ _ h, addressOp, Register.ofAddr_addr]

/-- The read of the address of a register. -/
theorem State.readAddr_addr (s : State) (r : Register) (h : s.inReset = false) :
    s.readAddr r.addr = s.settled.readRegister r := by
  simp [State.readAddr, h, Register.ofAddr_addr]

end Sys2Proof.Machine
end

