-- ==== Sys2Proof/Tests/Slice0.lean ====
section
/-!
SUPPORT. Tests on fixed values. The expected results come from the spec: its worked sequences and layouts, or
a calculation by hand from the rule named. The `witness_` theorems show, for each statement that has
hypotheses, states and operands that meet them, at the ends of the ranges.
-/
namespace Sys2Proof.Tests
open Sys2Proof.Machine

set_option Elab.async false

/-! ### Small states -/

/-- A Timebase in FREE whose last SYNC sample was low. -/
def freeTb : Timebase := { state := .free, syncLevel := some false, syncEnable := true, tickState := .free }

/-- A Timebase in LOCKED, 100 ticks past a multiple of its period at the coming tick. -/
def lockedTb : Timebase :=
  { freeTb with state := .locked, tickState := .locked, counter := 99, missTimer := some 5 }

/-- The part in CONFIG mode with its Timebase in FREE. -/
def free : State := { State.reset with tb := freeTb }

/-- The part in RUN mode with its Timebase in FREE. -/
def run : State := { free with mode := .run }

/-- The part in RUN mode with its Timebase in LOCKED. -/
def locked : State := { run with tb := lockedTb }

/-- The part held in reset. -/
def held : State := { State.reset with inReset := true }

/-- The state after a command that answers one. -/
def after (c : Instr) (s : State) : State :=
  match exec c s with
  | .next t => t
  | .fault _ => s
  | .refused _ => s

/-- A LIVE line whose level is established. -/
def live : Line := { config := { on := true }, state := .live, established := true }

/-- Line 0 as given, in RUN mode. -/
def withLine (l : Line) : State := { run with lines := run.lines.set 0 l }

/-- Slot 0 as given, in RUN mode. -/
def withSlot (x : Slot) : State := { run with slots := run.slots.set 0 x }

/-- A record of the system queue. -/
def rec0 : Record := { kind := .freeze, epoch := 0, time := 5 }

/-- The system queue and its group as given, with claims that wait. -/
def withQueue (q : Queue) (x : Group) (cs : List Claim) : State :=
  { free with queues := free.queues.set 8 q, groups := free.groups.set 8 x, claims := cs }

/-- An entry that sets output line 0 at a due time. -/
def entry (due : Time) : Entry := ⟨due, 7, .set, 1, none, true, .fire⟩

/-- A Schedule Unit as given, with the time at 1000. -/
def withSched (x : Schedule) : State := { free with tb := { freeTb with counter := 1000 }, sched := x }

/-! ### The commands as written words (Section 10.2) -/

theorem test_wellFormed_refuses_a_row_of_its_own :
    (Instr.registerWrite 0x19 0).wellFormed = false ∧ (Instr.registerWrite 0x01 2).wellFormed = false ∧
      (Instr.registerWrite 0x30 0).wellFormed = false := by decide +kernel

theorem test_wellFormed_takes_other_writes :
    (Instr.registerWrite 0x3D 0xFFFF).wellFormed = true ∧ (Instr.registerWrite 0x01 0).wellFormed = true ∧
      (Instr.registerWrite 0x9A 1).wellFormed = true := by decide +kernel

/-- The opcode table gives no bits, so no word spells a row. -/
theorem test_decodeTableWord_none : decodeTableWord 16 0x1234 = none := rfl

/-- TBCTL: command in bits 1:0, sync enable in bit 4, step allow in bit 5, freeze-on-holdover in bit 6. -/
theorem test_tbctl_words :
    commandOfWrite 0x30 0x0011 = .start true false false ∧
      commandOfWrite 0x30 0x0062 = .stop false true true ∧
      commandOfWrite 0x30 0x0003 = .preset false false false ∧
      commandOfWrite 0x30 0x0050 = .switches true false true := by decide +kernel

/-- RFXCMD: slot in bits 3:0, command in bits 9:8. SCMD: command in bits 2:0. -/
theorem test_rfxcmd_and_scmd_words :
    commandOfWrite 0x58 0x0105 = .arm 5 ∧ commandOfWrite 0x58 0x020F = .disarm 15 ∧
      commandOfWrite 0x58 0x0300 = .clear 0 ∧ commandOfWrite 0x60 1 = .cancel ∧
      commandOfWrite 0x60 4 = .commitNow ∧ commandOfWrite 0x60 6 = .abort ∧
      commandOfWrite 0x60 7 = .registerWrite 0x60 7 := by decide +kernel

/-- MODE: command in bits 2:1. FRZCTL and TCMD: command in bits 1:0. -/
theorem test_mode_frzctl_tcmd_words :
    commandOfWrite 0x01 2 = .run ∧ commandOfWrite 0x01 4 = .halt ∧ commandOfWrite 0x02 1 = .softReset ∧
      commandOfWrite 0x50 1 = .freeze ∧ commandOfWrite 0x50 2 = .unfreeze ∧ commandOfWrite 0x72 1 = .read ∧
      commandOfWrite 0x72 2 = .write ∧ commandOfWrite 0x72 3 = .append ∧
      commandOfWrite 0x14 9 = .acknowledge 4 9 ∧ commandOfWrite 0x4D 1 = .hostset 1 1 := by decide +kernel

/-! ### Layouts written out from Section 10.4 -/

/-- A LINE entry: mode ON, edge select BOTH (3), URGENT, filter 5, chatter limit 2; window 70,000 = 1 1170H;
quiet time 3. -/
theorem test_line_words :
    lineFields (bufferOf [0x025F, 0x1170, 0x0001, 3, 0]) =
      some { on := true, edge := .both, urgent := true, filter := 5, chatterLimit := 2
             chatterWindow := 70000, quietTime := 3 } := by decide +kernel

/-- A REFLEX entry: trigger line 33, EITHER (3), gate on line 2 at level 1; delay 4, width 65,536; mask bits
0 and 31; EXTEND (2), report, count limit 9. -/
theorem test_slot_words :
    slotFields (bufferOf [0x85E1, 4, 0, 0, 1, 0x0001, 0x8000, 0x0906]) =
      some { trigger := 33, edge := .either, gate := some ⟨2, true⟩, delay := 4, width := 65536
             mask := 0x80000001, policy := .extend, countLimit := 9, report := true } := by decide +kernel

/-- A schedule entry: WRITE (3), repeat present, report, late SKIP (1). -/
theorem test_entry_words :
    entryFields (bufferOf [0x1111, 0x2222, 0x3333, 42, 0x0073, 5, 0, 4, 0, 100, 0, 2]) =
      some ⟨0x333322221111, 42, .write 4, 5, some ⟨100, 2⟩, true, .skip⟩ := by decide +kernel

/-- The window words of an EDGE record of line 12, epoch 2, RISE and FIRST (bits 8 and 9 of WIN7). -/
theorem test_record_words :
    ({ kind := .edge, epoch := 2, source := 12, seq := 9, time := 0x000100020003, interval := 0xFFFFFFFF
       gap := 4, flags := { rise := true, first := true } } : Record).words =
      [0x0C21, 9, 3, 2, 1, 0xFFFF, 0xFFFF, 0x0304] := by decide +kernel

/-! ### Steps -/

/-- R1, R2: from 2^48 - 1 an advance by one gives 0. -/
theorem test_tick_wraps :
    (after (.tick 0 false false) { run with tb := { freeTb with counter := 0xFFFFFFFFFFFF } }).tb.counter = 0 := by
  decide +kernel

/-- R5, R172: STOP in RUN is refused with MODE and recorded under the address of TBCTL. -/
theorem test_stop_in_run_is_refused :
    (after (.stop false false false) run).refCode = some .mode ∧
      (after (.stop false false false) run).refAddr = 0x30 ∧
      (after (.stop false false false) run).tb.state = .free := by decide +kernel

/-- R11: with P = 1,000,000 a pulse at 1,999,990 is 10 ticks early; at 500,000 it is P/2. -/
theorem test_phase_error :
    phaseError 1999990 1000000 = -10 ∧ phaseError 500000 1000000 = 500000 ∧
      phaseError 500001 1000000 = -499999 := by decide +kernel

/-- R31: filter 0 qualifies a change at its first sample, and the EDGE record carries FIRST (R34). -/
theorem test_qualification_of_a_first_change :
    let s := after (.qualification 0) (after (.tick 1 false false) (withLine { live with firstMark := true }))
    (s.lines.get 0).level = true ∧
      s.claims.map (fun c => (c.record.kind, c.record.time, c.record.flags.first, c.record.flags.rise)) =
        [(.edge, 1, true, true)] := by decide +kernel

/-- R54: at its limit a queue of policy DROP_NEW discards, counts the loss and sets LOSS. -/
theorem test_claim_at_the_limit :
    let s := withQueue { quota := ⟨8, 1, .dropNew, 1, 0⟩, records := [rec0] } {} [⟨.output, false, rec0⟩]
    ((after .claim s).queues.get 8).pendingLoss = 1 ∧ (after .claim s).flag .loss = true ∧
      (after .claim s).claims = [] := by decide +kernel

/-- R73, R75: an acknowledge of an EMPTY group is stale. -/
theorem test_acknowledge_of_an_empty_group :
    (after (.acknowledge 3 1) free).flag .stale = true ∧ (after (.acknowledge 3 1) free).refCode = none := by
  decide +kernel

/-- R97, R100: a fall of FRZn freezes the stage and UNFREEZE is refused while FRZn is low. -/
theorem test_freeze_by_the_pin :
    (after .frznFall free).frozen = true ∧
      (after .unfreeze (after .frznFall free)).refCode = some .busy ∧
      (after .unfreeze (after .frznRise (after .frznFall free))).frozen = false := by decide +kernel

/-- R110, R93: a slot with delay 0 and width 0 goes to HOLDING, and its REFLEX-owned line is inverted. -/
theorem test_trigger_to_holding :
    let s : State := { withSlot { config := { mask := 1 }, state := .armed } with
      outputs := run.outputs.set 0 { owner := .reflex, safe := true, drive := true, claimed := true } }
    let t := s.passChange 0 true fun _ => false
    (t.slots.get 0).state = .holding ∧ (t.outputs.get 0).claimed = false ∧ t.pin 0 = some false := by
  decide +kernel

/-- R132, R134: an entry due at 1000 with period 3 and count 3 fires once at 1000 and re-enters at 1003. -/
theorem test_firing_reenters :
    let s := withSched { active := [⟨{ entry 1000 with rep := some ⟨3, 3⟩ }, 0⟩], nextOrder := 1 }
    (after .firing s).sched.active =
      [⟨{ entry 1003 with rep := some ⟨3, 2⟩ }, 1⟩] := by decide +kernel

/-- R134: at 1000 an entry due at 990 with period 3 fires, and its repetitions at 993, 996 and 999 are
skipped. -/
theorem test_catch_up : catchUp 1000 993 ⟨3, 0⟩ = (3, some (1002, ⟨3, 0⟩)) := by decide +kernel

/-- R158, R160, R164: a CANCEL of a tag that no entry carries is refused with NOT_FOUND (3) at index 0. -/
theorem test_commit_of_a_lost_cancel :
    let s := after .applicationFinish (after .cancelOperation
      (after .commitNow (withSched { staging := [.cancel 9] })))
    s.sched.commit = .open_ ∧ s.flag .commit = true ∧
      s.claims.map (fun c => (c.record.kind, c.record.tag, c.record.detail)) = [(.commit, 0, 0x0181)] := by
  decide +kernel

/-- R145, R5: an entry reached at a tick fires before the STOP that comes after the tick; afterwards FIRING does
nothing, and the record carries the tick's stamp. -/
theorem test_stop_finds_the_tick_fired :
    let s : State := { withSched { active := [⟨entry 1001, 0⟩], nextOrder := 1 } with mode := .config }
    let t := s.runCommands [.tick 0 false false, .stop false false false]
    t.sched.active = [] ∧ t.claims.map (fun c => c.record.time) = [1001] ∧
      after .firing t = t := by decide +kernel

/-- R50: with no tick since device reset, PRESET and START leave time 0, epoch 0 and UNSYNC as the stamp. -/
theorem test_stamp_before_the_first_tick :
    (held.runCommands [.deviceReset true, .registerWrite 0x3D 5, .preset false false false,
      .start false false false, .freeze]).claims.map (fun c =>
        (c.record.time, c.record.epoch, c.record.flags.unsync)) = [(0, 0, true)] := by decide +kernel

/-- R55: the record of a FREEZE is PRESENTED in group 8 at the next host access; GSTAT8 shows it. -/
theorem test_read_finds_the_freeze_record :
    (after .freeze free).readAddr 0x28 = 0x8001 := by decide +kernel

/-- R55: a TICK admits the claim that waits, and the record is PRESENTED. -/
theorem test_tick_admits_the_waiting_claim :
    let t := after (.tick 0 false false) (withQueue {} {} [⟨.output, true, rec0⟩])
    t.claims = [] ∧ (t.queues.get 8).records.map (fun r => (r.kind, r.seq)) = [(.freeze, 1)] := by
  decide +kernel

/-- R93: a re-evaluation leaves a line that SCHEDULE owns and sets one that REFLEX owns to its safe value. -/
theorem test_reevaluate_keeps_other_owners :
    let o : OutLine := { owner := .schedule, claimed := true }
    let s : State := { run with outputs := (run.outputs.set 0 o).set 1 { o with owner := .reflex } }
    s.reevaluate.outputs.get 0 = o ∧ (s.reevaluate.outputs.get 1).claimed = false := by decide +kernel

/-- R14, R42: at V = 101 with P = 1,000,000 the step amount is -101, and a last selected onset of 500 moves
to 399. -/
theorem test_step_moves_the_last_onset :
    let tb : Timebase := { lockedTb with counter := 100, stepAllow := true }
    let t := after (.tick 0 true false) { withLine { live with lastOnset := 500 } with tb := tb }
    t.tb.counter = 0 ∧ (t.lines.get 0).lastOnset = 399 := by decide +kernel

/-- R130: an entry due at 1002 stands behind one due at the same time that entered before it, and ahead of
one due at 1003. -/
theorem test_insertActive :
    insertActive 1000 ⟨entry 1002, 9⟩ [⟨entry 990, 0⟩, ⟨entry 1002, 1⟩, ⟨entry 1003, 2⟩] =
      [⟨entry 990, 0⟩, ⟨entry 1002, 1⟩, ⟨entry 1002, 9⟩, ⟨entry 1003, 2⟩] := by decide +kernel

/-- R173: a change that qualifies at the tick before a HALT is recorded, and the line is then IDLE. -/
theorem test_halt_finds_the_change_recorded :
    let s := (withLine live).runCommands [.tick 1 false false, .halt]
    s.claims.map (fun c => c.record.kind) = [.edge] ∧ (s.lines.get 0).state = .idle ∧
      s.mode = .config := by decide +kernel

/-- R176: a LOST that the tick before a SOFT_RESET makes is not left behind it; only ENTER by PIN waits. -/
theorem test_soft_reset_finds_the_expiry_taken :
    let s : State := { locked with frzn := false, tb := { lockedTb with missTimer := some 1, missCount := 2 } }
    let t := s.runCommands [.tick 0 false false, .softReset, .missTimerExpiry]
    t.claims.map (fun c => c.record.kind) = [.freeze] ∧ t.tb.state = .holdover := by decide +kernel

/-- The queue: the first command first, and an empty queue idles. -/
theorem test_step_takes_the_front :
    (match step { State.reset with pending := [.frznFall, .frznRise] } with
      | .next t => (t.frzn, t.pending)
      | _ => (true, [])) = (false, [.frznRise]) := by decide +kernel

/-! ### Witnesses: states and operands that meet the hypotheses of the statements -/

theorem witness_StepRunsTheFrontCommand : State.reset.pending = [] := rfl

theorem modeSafe_held : ModeSafe held := by
  constructor <;> decide +kernel

theorem witness_DeviceResetLeavesTheResetValues :
    held.inReset = true ∧ held.frzn = true ∧ ({ held with frzn := false } : State).frzn = false ∧
      free.inReset = false ∧ writeOfCommand (.flush 8) = some (0x19, 8) ∧ ModeSafe held :=
  ⟨rfl, rfl, rfl, rfl, rfl, modeSafe_held⟩

/-- An expiry of the tick before that is due, and none. -/
theorem witness_SoftResetKeepsTheTimebase :
    free.inReset = false ∧ free.frzn = true ∧ ({ free with frzn := false } : State).frzn = false ∧
      free.tb.expiryDue = false ∧ ({ lockedTb with missTimer := some 0 } : Timebase).expiryDue = true ∧
      free.tb.state ≠ .stopped ∧ State.reset.tb.state = .stopped :=
  ⟨rfl, rfl, rfl, rfl, rfl, by decide, rfl⟩

theorem witness_HostAccessFindsEventClaimsTaken :
    let s := withQueue {} {} [⟨.output, false, rec0⟩]
    s.inReset = false ∧ s.eventClaimWaits = true ∧ free.eventClaimWaits = false ∧
      (s.settled.queues.get 8).count = 1 ∧ writeOfCommand .discard = some (0x60, 3) := by decide +kernel

theorem witness_HostWriteIsTakenOrRefused :
    writeOfCommand (.flush 9) = some (0x19, 9) ∧ free.inReset = false ∧
      commandOfWrite 0x19 9 ≠ .softReset ∧ (after (.flush 9) free).refCode = some .range ∧
      (after (.flush 8) free).refCode = none := by decide +kernel

/-- The ends of every range of addresses; no address falls under both clauses. -/
theorem witness_RegisterWritesAreTakenByTheirAddress :
    free.inReset = false ∧
      (∀ a ∈ [0x00#8, 0x63, 0x08, 0x0F, 0x20, 0x28, 0x40, 0x4B, 0x59, 0x5C],
        (after (.registerWrite a 0) free).refCode = some .readonly) ∧
      (∀ a ∈ [0x1E#8, 0x1F, 0x29, 0x2F, 0x51, 0x57, 0x5D, 0x5F, 0x67, 0x6F, 0x73, 0x7F, 0x90, 0xFF],
        (after (.registerWrite a 0) free).refCode = some .unmapped) := by decide +kernel

/-- The codes of the command registers that spell no row: those that are no command, and those refused. -/
theorem witness_RegisterWritesAreTakenByTheirAddress_codes :
    let code (a : Addr) (w : Word) := (after (.registerWrite a w) free).refCode
    code 0x01 0xFFF9 = none ∧ code 0x01 6 = some .range ∧ code 0x02 0 = none ∧ code 0x02 2 = some .range ∧
      code 0x02 0xFFFF = some .range ∧ code 0x50 0xFFFC = none ∧ code 0x50 3 = some .range ∧
      code 0x58 0xFC0F = some .range ∧ code 0x60 0 = some .range ∧ code 0x60 15 = some .range ∧
      code 0x72 0xFFFC = some .range := by decide +kernel

theorem witness_HostWriteRoundTrip :
    (Instr.arm 15).wellFormed = true ∧ writeOfCommand (.arm 15) = some (0x58, 0x010F) ∧
      (Instr.registerWrite 0x3F 0xFFFF).wellFormed = true ∧
      writeOfCommand (.registerWrite 0x3F 0xFFFF) = some (0x3F, 0xFFFF) := by decide +kernel

theorem witness_TableSelectAndIndexAreWritten :
    free.inReset = false ∧ (5 : Word) = TableSel.sched.code ∧ (0 : Word) = TableSel.line.code ∧
      5 < (6 : Word).toNat ∧ (255 : Word).toNat ≤ 255 ∧ 255 < (256 : Word).toNat := by decide +kernel

theorem witness_PlainSettingsAreWritten :
    free.inReset = false ∧ (8 : Word).toNat = (8 : GroupNo).val ∧ 8 < (9 : Word).toNat := by decide +kernel

theorem witness_RunAndHalt :
    free.inReset = false ∧ State.reset.tb.state = .stopped ∧ run.tb.state ≠ .stopped ∧ run.mode = .run ∧
      free.mode = .config ∧ free.tb.state ≠ .stopped ∧ ClaimsOrdered run ∧
      (∀ n, (run.lines.get n).qualifies = false ∧ run.releaseDue n = false) ∧
      ∀ i, run.delayDue i = false ∧ run.widthDue i = false :=
  ⟨rfl, rfl, by decide, rfl, rfl, by decide, List.Pairwise.nil, by decide +kernel, by decide +kernel⟩

theorem witness_PhaseErrorIsTheNearestMultiple :
    0 < 1 ∧ free.inReset = false ∧ (-32768 : Int) ≤ -32768 ∧ (32767 : Int) ≤ 32767 ∧
      (32767 : Int) < 32768 ∧ (-32769 : Int) < -32768 := by decide

/-- Each way in which a tick is no evaluated pulse (R10), and the last count of the miss timer at the limit. -/
theorem witness_TickAdvancesTheTimeValue :
    let last : Timebase := { lockedTb with missTimer := some 1, missCount := 2 }
    let evaluated (t : Timebase) (sync : Bool) : Prop :=
      t.syncLevel = some false ∧ sync = true ∧ t.syncEnable = true
    State.reset.tb.state = .stopped ∧ free.tb.state ≠ .stopped ∧ ¬evaluated freeTb false ∧
      ¬evaluated { freeTb with syncLevel := none } true ∧ ¬evaluated { freeTb with syncLevel := some true } true ∧
      ¬evaluated { freeTb with syncEnable := false } true ∧ free.tb.expiryDue = false ∧
      last.expiryDue = false ∧ last.missCount + 1 = last.missLimit := by
  simp only [freeTb]; decide +kernel

theorem safe_free : TimebaseSafe freeTb :=
  ⟨by decide, by decide, by decide, by decide, by decide, by decide, by intro x h; cases h⟩

theorem safe_locked : TimebaseSafe lockedTb :=
  ⟨by decide, by decide, by decide, by decide, by decide, by decide, by intro x h; cases h⟩

/-- V is 100, so the phase error is 100 at a slew limit of 100; an expiry at the same tick that reaches the
miss limit first, and one that does not. -/
theorem witness_GoodPulseLocksAndSlews :
    let last : Timebase := { lockedTb with missTimer := some 1, missCount := 2 }
    TimebaseSafe locked.tb ∧ locked.tb.state ≠ .stopped ∧ locked.tb.syncLevel = some false ∧
      locked.tb.syncEnable = true ∧ locked.tb.expiryDue = false ∧
      (phaseError 100 locked.tb.period.toNat).natAbs ≤ locked.tb.slewLimit.toNat ∧ TimebaseSafe last ∧
      last.expiryDue = false ∧ last.losesFirst true = true ∧ last.losesFirst false = false ∧
      { last with missCount := 1 }.losesFirst true = false :=
  ⟨safe_locked, by decide, rfl, rfl, rfl, by decide,
    ⟨by decide, by decide, by decide, by decide, by decide, by decide, by intro x h; cases h⟩,
    rfl, rfl, rfl, rfl⟩

/-- A Timebase at V = 101, one above the slew limit, with step allow yes. -/
def steppingTb : Timebase := { lockedTb with counter := 100, stepAllow := true }

/-- The entries due at 101 (reached against V), at 1 and 0 (below V, and below V less the error of 101), and
at 900,000 (ahead); a step backward takes the first three, and one forward makes an entry late. -/
theorem witness_SteppedPulseStepsTheTime :
    let last : Timebase := { steppingTb with missTimer := some 1, missCount := 2 }
    TimebaseSafe steppingTb ∧ steppingTb.state ≠ .stopped ∧ steppingTb.syncLevel = some false ∧
      steppingTb.syncEnable = true ∧ steppingTb.expiryDue = false ∧ steppingTb.stepAllow = true ∧
      steppingTb.slewLimit.toNat < (phaseError 101 steppingTb.period.toNat).natAbs ∧ TimebaseSafe last ∧
      last.losesFirst true = true ∧ phaseError 101 steppingTb.period.toNat = 101 ∧ reached 0 1 = false ∧
      reached 0 0 = true ∧ reached 101 0 = true ∧ phaseError 999801 1000000 = -199 ∧
      reached 1000000 999900 = true ∧ reached 999801 999900 = false ∧ (entry 999900).late = .fire :=
  ⟨⟨by decide, by decide, by decide, by decide, by decide, by decide, by intro x h; cases h⟩,
    by decide, rfl, rfl, rfl, rfl, by decide,
    ⟨by decide, by decide, by decide, by decide, by decide, by decide, by intro x h; cases h⟩,
    by decide, by decide, by decide, by decide, by decide, by decide, by decide, by decide, rfl⟩

theorem witness_BadPulseCountsTowardsHoldover :
    let last : Timebase := { lockedTb with missTimer := some 1, missCount := 2 }
    TimebaseSafe lockedTb ∧ lockedTb.syncLevel = some false ∧ lockedTb.syncEnable = true ∧
      lockedTb.expiryDue = false ∧ lockedTb.stepAllow = false ∧
      lockedTb.slewLimit.toNat < (phaseError 101 lockedTb.period.toNat).natAbs ∧
      TimebaseSafe freeTb ∧ freeTb.state ≠ .locked ∧ lockedTb.badCount + 1 ≠ lockedTb.badLimit ∧
      ({ lockedTb with badCount := 2 } : Timebase).badCount + 1 = lockedTb.badLimit ∧ TimebaseSafe last ∧
      last.losesFirst true = true ∧ { last with missCount := 1 }.losesFirst true = false :=
  ⟨safe_locked, rfl, rfl, by decide, rfl, by decide, safe_free, by decide, by decide, by decide,
    ⟨by decide, by decide, by decide, by decide, by decide, by decide, by intro x h; cases h⟩, rfl, rfl⟩

/-- The expiry that is one short of the miss limit, and the one that reaches it. -/
theorem witness_MissTimerExpiryCountsAMiss :
    let t : Timebase := { lockedTb with missTimer := some 0, missCount := 1 }
    free.tb.expiryDue = false ∧ t.state = .locked ∧ t.missTimer = some 0 ∧ t.missCount + 1 ≠ t.missLimit ∧
      (2 : BitVec 4) + 1 = t.missLimit ∧ t.freezeOnHoldover = false ∧ locked.frozen = false ∧
      ({ locked with causes := { pin := true } } : State).frozen = true := by decide +kernel

theorem witness_SlewAdjustmentChoosesTheTick :
    let t : Timebase := { freeTb with slew := some ⟨true, 1, 4, 1⟩ }
    t.state ≠ .stopped ∧ t.slew = some ⟨true, 1, 4, 1⟩ ∧ t.advance = .normal ∧ 1 ≤ 1 ∧
      State.reset.tb.state = .stopped ∧ free.tb.slew = none ∧ Advance.held ≠ .normal ∧
      1 < ({ ahead := true, left := 1, spacing := 4, next := 2 } : Slew).next := by decide +kernel

/-- The least period that a phase error of 1 can have. -/
theorem witness_SlewRemovesThePhaseError :
    let t : Timebase := { freeTb with period := 2, slew := slewFor 2 1 }
    t.state ≠ .stopped ∧ t.advance = .normal ∧ (1 : Int) ≠ 0 ∧ 2 * (1 : Int).natAbs ≤ t.period.toNat ∧
      t.slew = slewFor t.period.toNat 1 := by decide +kernel

theorem witness_TimebaseCommands :
    free.inReset = false ∧ State.reset.tb.state = .stopped ∧ free.tb.state ≠ .stopped ∧
      State.reset.sched.active = [] ∧ State.reset.sched.commit = .open_ ∧ run.mode = .run ∧
      free.mode = .config ∧ State.reset.mode = .config ∧ locked.tb.syncEnable = true ∧
      locked.settled.missExpiry.tb.state = .locked ∧ locked.tb.expiryDue = false := by decide +kernel

theorem witness_TimebaseSettingsAreChecked :
    State.reset.inReset = false ∧ State.reset.tb.state = .stopped ∧ free.tb.state ≠ .stopped ∧
      ¬(free.tb.state = .stopped ∨ free.tb.syncEnable = false) ∧
      (1 ≤ (1 : Word).toNat ∧ (4096 : Word).toNat ≤ 4096) ∧ ¬(4097 : Word).toNat ≤ 4096 ∧
      65536 * (1000000 / 65536) + (0 : Word).toNat ≠ 0 ∧ (255 : Word).toNat < 256 ∧
      ¬(256 : Word).toNat < 256 ∧ (4095 : Word).toNat ≤ 4095 ∧ ¬(4096 : Word).toNat ≤ 4095 ∧
      ((0x11 : Word).toNat % 16 ≠ 0 ∧ (0x11 : Word).toNat / 16 % 16 ≠ 0) ∧
      ¬(0x10 : Word).toNat % 16 ≠ 0 := by decide +kernel

theorem witness_TimeReadLatchesTheTimeValue : free.inReset = false := rfl

/-- An active list of one entry that is ahead. -/
def oneAhead : State := withSched { active := [⟨entry 1001, 0⟩], nextOrder := 1 }

theorem scheduleSafe_oneAhead : ScheduleSafe oneAhead.sched :=
  ⟨by decide, by decide,
    by
      intro a h
      have : a = ⟨entry 1001, 0⟩ := by simpa [oneAhead, withSched] using h
      subst this
      exact ⟨by decide, by decide, by intro r hr; cases hr⟩,
    (by intro o h; cases h), by decide, by decide⟩

theorem scheduleOrdered_oneAhead : ScheduleOrdered oneAhead :=
  ⟨List.pairwise_singleton _ _,
    by
      have : (oneAhead.sched.active.filter fun a => !reached oneAhead.tb.counter a.entry.due) =
        [⟨entry 1001, 0⟩] := by decide +kernel
      rw [this]
      exact List.pairwise_singleton _ _,
    by
      intro a h
      have : a = ⟨entry 1001, 0⟩ := by simpa [oneAhead, withSched] using h
      subst this
      decide⟩

/-- A tick that is no evaluated pulse, one that is but makes no step, one that steps, and an expiry that is
due. -/
theorem witness_TickCompletesThePrecedingTick :
    let due : Timebase := { lockedTb with missTimer := some 0 }
    TimebaseSafe oneAhead.tb ∧ ScheduleSafe oneAhead.sched ∧ ScheduleOrdered oneAhead ∧
      oneAhead.tb.state ≠ .stopped ∧ State.reset.tb.state = .stopped ∧
      ¬(freeTb.syncLevel = some false ∧ false = true ∧ freeTb.syncEnable = true) ∧
      (lockedTb.syncLevel = some false ∧ true = true ∧ lockedTb.syncEnable = true) ∧
      lockedTb.stepAllow = false ∧ steppingTb.syncLevel = some false ∧ steppingTb.syncEnable = true ∧
      steppingTb.stepAllow = true ∧
      steppingTb.slewLimit.toNat < (phaseError 101 steppingTb.period.toNat).natAbs ∧
      TimebaseSafe due ∧ due.expiryDue = true :=
  ⟨⟨by decide, by decide, by decide, by decide, by decide, by decide, by intro x h; cases h⟩,
    scheduleSafe_oneAhead, scheduleOrdered_oneAhead, by decide, rfl, by decide, by decide, rfl, rfl, rfl, rfl,
    by decide, ⟨by decide, by decide, by decide, by decide, by decide, by decide, by intro x h; cases h⟩,
    by decide⟩

/-- A tick that makes no step, and one that steps by -101. -/
theorem witness_TickSamplesEveryLine :
    free.tb.state ≠ .stopped ∧ steppingTb.state ≠ .stopped ∧ freeTb.stepAllow = false ∧
      steppingTb.syncLevel = some false ∧ steppingTb.syncEnable = true ∧ steppingTb.stepAllow = true ∧
      phaseError 101 steppingTb.period.toNat = 101 ∧ steppingTb.slewLimit.toNat < 101 := by decide +kernel

/-- Filter 15, the longest, at its first and its last tick. -/
theorem witness_FilterDelaysAChangeByItsTicks :
    let l : Line := { live with config := { on := true, filter := 15 } }
    run.tb.state ≠ .stopped ∧ ((withLine l).lines.get 0).state = .live ∧ l.established = true ∧
      l.qualifier = .stable ∧ (1 : BitVec 64).getLsbD 0 = !l.level ∧ 1 ≤ l.config.filter.toNat + 1 ∧
      1 ≤ 16 ∧ 16 ≤ l.config.filter.toNat + 1 := by decide +kernel

/-- A change that is one sample short of filter + 1, and one that has reached it, against a chatter window of
1000 ticks of age 999 and 1000 and a chatter limit of 2. -/
theorem witness_QualificationHandlesTheChange :
    let o : Onset := ⟨1, 0, .free, false⟩
    let l : Line := { live with qualifier := .pending true o 1 }
    let c : Line := { l with config := { on := true, chatterLimit := 2 } }
    (∀ v p k, ({ live with qualifier := .pending true o 0 } : Line).qualifier = .pending v p k →
      k < l.config.filter.toNat + 1) ∧
      l.qualifier = .pending true o 1 ∧ l.config.filter.toNat + 1 ≤ 1 ∧
      ({ l with state := .suppressed } : Line).state = .suppressed ∧ l.state = .live ∧
      l.config.edge = .both ∧ l.config.chatterLimit = 0 ∧ c.config.chatterLimit ≠ 0 ∧ c.window = none ∧
      c.config.chatterWindow.toNat + 0 ≤ 1000 ∧ 999 < c.config.chatterWindow.toNat + 0 ∧
      1 < c.config.chatterLimit.toNat ∧ c.config.chatterLimit.toNat ≤ 2 ∧
      ¬(EdgeSelect.fall = .both ∨ (EdgeSelect.fall = .rise ∧ true = true) ∨
        (EdgeSelect.fall = .fall ∧ true = false)) ∧
      State.reset.tb.state = .stopped ∧ run.tb.state ≠ .stopped ∧
      ({ l with interval := 14, firstMark := false, config := { on := true, filter := 15 } } : Line).interval < 15 :=
  ⟨by intro v p k h; cases h; decide, rfl, by decide, rfl, rfl, rfl, rfl, by decide, rfl, by decide,
    by decide, by decide, by decide, by decide, rfl, by decide, by decide⟩

theorem witness_ReleaseReportsTheLine :
    let l : Line := { live with state := .suppressed, quiet := some 0 }
    let s := withLine l
    ¬((run.lines.get 0).state = .suppressed ∧ (run.lines.get 0).quiet = some 0) ∧
      (∃ m, ((withLine { live with qualifier := .pending true ⟨1, 0, .free, false⟩ 1 }).lines.get m).qualifies
        = true) ∧
      (s.lines.get 0).state = .suppressed ∧ (s.lines.get 0).quiet = some 0 ∧
      (∀ m, (s.lines.get m).qualifies = false) ∧ s.tb.state ≠ .stopped ∧ State.reset.tb.state = .stopped := by decide +kernel

/-- A slot that a RESTART trigger cuts short and asserts again at once. -/
theorem witness_PassedChangeReachesTheSlots :
    let x : Slot :=
      { config := { policy := .restart, width := 1, mask := 1, report := true }, state := .active
        timer := some 1 }
    ClaimsOrdered (withSlot x) ∧ x.config.report = true ∧ x.config.trigger = 0 ∧ x.config.edge = .rise ∧
      x.config.gate = none ∧ x.state = .active ∧ x.config.policy = .restart ∧ x.config.delay = 0 ∧
      ((withSlot x).outputs.get 0).owner ≠ .reflex :=
  ⟨List.Pairwise.nil, rfl, rfl, rfl, rfl, rfl, rfl, rfl, by decide +kernel⟩

theorem witness_DelayAndWidthRunOut :
    let s := withSlot { state := .delaying, timer := some 0 }
    let t := withSlot { state := .active, timer := some 0 }
    (s.slots.get 0).state = .delaying ∧ (s.slots.get 0).timer = some 0 ∧ (t.slots.get 0).state = .active ∧
      (t.slots.get 0).timer = some 0 ∧ ¬(s.slots.get 0).state = .active ∧
      ¬(t.slots.get 0).state = .delaying ∧ s.tb.state ≠ .stopped ∧ t.tb.state ≠ .stopped ∧
      State.reset.tb.state = .stopped := by decide +kernel

theorem witness_SlotCommands :
    run.inReset = false ∧ free.mode = .config ∧ run.mode = .run ∧ (run.slots.get 0).state = .disarmed ∧
      ((withSlot { state := .armed }).slots.get 0).state ≠ .disarmed ∧
      ((withSlot { state := .holding }).slots.get 0).state = .holding ∧
      ((withSlot { state := .active }).slots.get 0).state = .active := by decide +kernel

/-- A sound LIVE line whose level is not established, and a sound OFF line. -/
theorem witness_SlotStatesAreShown :
    let l : Line := { live with established := false }
    free.inReset = false ∧ LineSafe l ∧ l.established = false ∧ LineSafe {} ∧ ({} : Line).state = .off :=
  ⟨rfl, ⟨by decide, by decide, by decide, by decide, by intro v o n h; cases h⟩, rfl,
    ⟨by decide, by decide, by decide, by decide, by intro v o n h; cases h⟩, rfl⟩

/-- A new record between two others of the current run, and times just less than 2^47 apart. -/
theorem witness_RecordsArePlacedByKey :
    Key.lt ⟨0, 0⟩ ⟨0x7FFFFFFFFFFF, 0⟩ = true ∧ Key.lt ⟨0, 0⟩ ⟨0x800000000000, 0⟩ = false ∧
      Key.lt ⟨0x800000000000, 0⟩ ⟨0, 0⟩ = false ∧ Key.lt ⟨0, 1⟩ ⟨0x800000000000, 2⟩ = true ∧
      (({ records := [rec0, { rec0 with time := 9 }] } : Queue).place false { rec0 with time := 7 }).map
        Record.time = [5, 7, 9] := by decide +kernel

/-- The last record within a limit of 2, and the first above it. -/
theorem witness_ClaimIsAdmitted :
    let s := withQueue { quota := ⟨1, 2, .dropNew, 1, 0⟩, records := [rec0] } {} [⟨.output, true, rec0⟩]
    let e := withQueue { quota := ⟨1, 2, .dropNew, 1, 0⟩ } {} [⟨.output, true, rec0⟩]
    free.claims = [] ∧ s.claims = [⟨.output, true, rec0⟩] ∧ (s.queues.get 8).records.length < 2 ∧
      s.unusedByOthers 8 < s.freeSlots ∧ (s.queues.get 8).records ≠ [] ∧
      (e.queues.get 8).records = [] ∧ (e.groups.get 8).deliver = true := by decide +kernel

theorem witness_ClaimOverflows :
    let old := { rec0 with time := 9 }
    let q : Queue := { quota := ⟨1, 1, .dropOldest, 1, 0⟩, records := [old] }
    let s := withQueue q {} [⟨.output, true, rec0⟩]
    s.claims = [⟨.output, true, rec0⟩] ∧
      ¬((s.queues.get 8).records.length < (s.queues.get 8).quota.limit.toNat) ∧
      q.quota.policy = .dropOldest ∧ q.records[0]? = some old ∧ q.runStart ≤ 0 ∧
      rec0.key.lt old.key = true ∧ ({ rec0 with time := 10 } : Record).key.lt old.key = false ∧
      q.records[1]? = none ∧ Policy.dropNew = .dropNew := by decide +kernel

theorem witness_AcknowledgeFlushAndAgeTimer :
    let x : Group := { presented := some 1, nextSeq := 2, ageTimer := some 0 }
    let s := withQueue { records := [{ rec0 with seq := 1 }, rec0] } x []
    free.inReset = false ∧ (s.settled.groups.get 8).presented = some 1 ∧
      (s.settled.groups.get 8).presented ≠ some 2 ∧ (s.settled.queues.get 8).records.tail = [rec0] ∧
      x.deliver = true ∧ 8 < (9 : Word).toNat ∧ (8 : Word).toNat = (8 : GroupNo).val ∧
      (free.settled.groups.get 8).presented = none ∧ (free.settled.queues.get 8).records = [] ∧
      (s.groups.get 8).ageTimer = some 0 ∧ (free.groups.get 8).ageTimer ≠ some 0 ∧
      s.tb.state ≠ .stopped ∧ State.reset.tb.state = .stopped := by decide +kernel

theorem witness_DeliveryEnablesAreWritten :
    let s := withQueue { records := [rec0] } { deliver := false } []
    s.inReset = false ∧ (s.settled.groups.get 8).deliver ≠ (0x100 : Word).getLsbD 8 ∧
      (0x100 : Word).getLsbD 8 = true ∧ (s.settled.groups.get 8).presented = none ∧
      (s.settled.queues.get 8).records = [rec0] ∧
      (free.settled.groups.get 8).deliver = (0x100 : Word).getLsbD 8 ∧
      (free.settled.groups.get 7).deliver ≠ (0x100 : Word).getLsbD 7 := by decide +kernel

theorem witness_InterruptLineFollowsItsRequests :
    let s := withQueue { records := [rec0] } { presented := some 1, irqEnable := true } []
    s.inReset = false ∧ (s.readAddr 0x1C).getLsbD 8 = true ∧ (s.groups.get 8).irqEnable = true ∧
      (∀ h : GroupNo, h < 8 → ¬((s.readAddr 0x1C).getLsbD h.val = true ∧ (s.groups.get h).irqEnable = true)) ∧
      (∀ g : GroupNo, ¬((free.readAddr 0x1C).getLsbD g.val = true ∧ (free.groups.get g).irqEnable = true)) := by
  decide +kernel

theorem witness_PinsFollowTheFreezeState :
    free.inReset = false ∧ (free.outputs.get 0).drive = false ∧
      (({ free with outputs := free.outputs.set 31 { drive := true } } : State).outputs.get 31).drive = true := by
  decide +kernel

theorem witness_HostClaimsItsLines : free.inReset = false := rfl

theorem witness_FreezeAndRelease :
    free.inReset = false ∧ free.frzn = true ∧ ({ free with frzn := false } : State).frzn = false ∧
      free.causes = {} ∧ ({ free with causes := { holdover := true } } : State).causes ≠ {} ∧
      held.inReset = true ∧ free.tb.state ≠ .stopped ∧ State.reset.tb.state = .stopped := by
  decide +kernel

/-- Reached at a distance of 0 and of 2^47 - 1, ahead at 2^47. -/
theorem witness_HeadFiresWhenReached :
    free.sched.active = [] ∧ (withSched { active := [⟨entry 1000, 0⟩] }).sched.active = [⟨entry 1000, 0⟩] ∧
      reached 1000 1000 = true ∧ reached 1000 (1000 - 0x7FFFFFFFFFFF) = true ∧
      reached 1000 (1000 - 0x800000000000) = false ∧
      free.tb.state ≠ .stopped ∧ State.reset.tb.state = .stopped ∧ State.reset.sched.active = [] := by decide +kernel

theorem witness_CatchUpFollowsTheRule :
    (1 : BitVec 32) ≠ 0 ∧ 2 ^ 47 ≤ 2 ^ 47 ∧ reached 1000 1000 = true ∧
      (catchUp 1000 1000 ⟨1, 0⟩).2 = some (1001, ⟨1, 0⟩) := by decide +kernel

theorem witness_StagingCommands :
    let full := withSched { staging := List.replicate 64 .clearAll }
    free.inReset = false ∧ free.sched.commit = .open_ ∧
      (withSched { commit := .armed }).sched.commit ≠ .open_ ∧ 64 ≤ full.sched.staging.length ∧
      (withSched { staging := List.replicate 63 .clearAll }).sched.staging.length < 64 ∧
      free.sched.sarg = 0 ∧ (withSched { sarg := 1 }).sched.sarg ≠ 0 ∧
      free.tsel = .line ∧ ({ free with tsel := .stage } : State).tsel = .stage ∧
      ({ free with tsel := .sched } : State).tsel = .sched := by decide +kernel

/-- Each field of an appended entry at the end of its range and past it: the tag, the action code, the mask,
the late policy code, the period with and without repeat. -/
theorem witness_StagingCommands_ranges :
    let append (ws : List Word) :=
      (after .append { free with tsel := .stage, tdata := bufferOf ws }).refCode
    append [0, 0, 0, 1, 0x43, 1, 0] = none ∧ append [0, 0, 0, 0, 0x43, 1, 0] = some .range ∧
      append [0, 0, 0, 1, 4, 1, 0] = some .range ∧ append [0, 0, 0, 1, 0, 0, 0] = some .range ∧
      append [0, 0, 0, 1, 0, 0, 0x8000] = none ∧ append [0, 0, 0, 1, 0x80, 1, 0] = some .range ∧
      append [0, 0, 0, 1, 0x10, 1, 0, 0, 0, 0, 0, 9] = some .range ∧
      append [0, 0, 0, 1, 0x10, 1, 0, 0, 0, 0, 1] = none := by decide +kernel

theorem witness_CommitCommands :
    let s := withSched { staging := [.clearAll], cat := 1000 }
    s.inReset = false ∧ s.sched.commit = .open_ ∧ s.sched.staging ≠ [] ∧ free.sched.staging = [] ∧
      reached s.tb.counter s.sched.cat = true ∧ reached s.tb.counter 1001 = false ∧
      (withSched { commit := .armed }).sched.commit = .armed ∧
      (withSched { commit := .applying }).sched.commit = .applying ∧
      (withSched { commit := .applying }).sched.staging.length ≤ 0 ∧ 0 < s.sched.staging.length ∧
      s.tb.state ≠ .stopped ∧ State.reset.tb.state = .stopped := by
  decide +kernel

/-- Every kind of next operation; an INSERT reached under both late policies, at the horizon of 2^46 and one
tick past it, and with room for one entry and none. -/
theorem witness_StagedOperationsAreApplied :
    let s (o : StagedOp) := withSched { staging := [o], commit := .applying, active := [⟨entry 2000, 0⟩] }
    (s (.insert (entry 1000))).nextOp = some (.insert (entry 1000)) ∧ (s .clearAll).nextOp = some .clearAll ∧
      (s (.cancel 7)).nextOp = some (.cancel 7) ∧ free.nextOp = none ∧
      256 ≤ (List.replicate 256 (⟨entry 2000, 0⟩ : Active)).length ∧
      (List.replicate 255 (⟨entry 2000, 0⟩ : Active)).length < 256 ∧ reached 1000 1000 = true ∧
      (entry 1000).late = .fire ∧ ({ entry 1000 with late := .skip } : Entry).late = .skip ∧
      distance 1000 (1000 + 0x400000000000) ≤ 2 ^ 46 ∧ 2 ^ 46 < distance 1000 (1001 + 0x400000000000) ∧
      (∀ a ∈ (s (.cancel 8)).sched.active, a.entry.tag ≠ 8) ∧
      (∃ a ∈ (s (.cancel 7)).sched.active, a.entry.tag = 7) ∧ (entry 1000).report = true ∧
      ({ entry 1000 with report := false } : Entry).report = false := by decide +kernel

/-- The ends of every range, and a step while STOPPED that offers a record. -/
theorem witness_SystemRecordsCarryTheirFields :
    (-8388608 : Int) ≤ -8388607 ∧ (8388607 : Int) ≤ 8388607 ∧
      ({ applied := 255, removed := 255, refused := 64 } : Schedule).applied ≤ 255 ∧
      ({ firstRefusal := some (.past, 63) } : Schedule).firstRefusal = some (.past, 63) ∧ 63 ≤ 63 ∧
      State.reset.tb.state = .stopped ∧
      (match step { State.reset with pending := [.frznFall] } with
        | .next t => t.claims.map fun c => c.record.flags.unsync
        | _ => []) = [true] := by
  decide +kernel

theorem witness_WindowShowsThePresentedRecord :
    let s : State := { withQueue { records := [rec0] } { presented := some 1 } [] with wsel := 8 }
    s.inReset = false ∧ (s.groups.get s.wsel).presented = some 1 ∧
      (s.queues.get s.wsel).records = [rec0] ∧ (free.groups.get free.wsel).presented = none := by
  decide +kernel

/-- The last index of every table and the first past it. -/
theorem witness_TableReadFillsTheBuffer :
    free.inReset = false ∧ (63 : Nat) = (63 : LineNo).val ∧ (15 : Nat) = (15 : SlotNo).val ∧
      (31 : Nat) = (31 : OutNo).val ∧ (8 : Nat) = (8 : GroupNo).val ∧
      (∀ p ∈ [(TableSel.line, 64#8), (.reflex, 16), (.output, 32), (.quota, 9)],
        (after .read { free with tsel := p.1, tidx := p.2 }).refCode = some .range) ∧
      (∀ p ∈ [(TableSel.line, 63#8), (.reflex, 15), (.output, 31), (.quota, 8), (.stage, 255),
          (.sched, 255)],
        (after .read { free with tsel := p.1, tidx := p.2 }).refCode = none) := by decide +kernel

/-- One entry of each table that is taken, and one that each check refuses. -/
theorem witness_TableWritesAreChecked :
    let w (t : TableSel) (ws : List Word) (s : State) :=
      (after .write { s with tsel := t, tdata := bufferOf ws }).refCode
    free.inReset = false ∧ w .stage [] free = some .readonly ∧
      w .line [0x0007, 1, 0, 1, 0] (withLine live) = some .busy ∧
      w .line [0x0001, 1, 0, 1, 0] free = some .range ∧ w .line [0x0007, 1, 0, 1, 0] free = none ∧
      w .reflex [0x0040, 0, 0, 0, 0, 0, 0, 0] (withSlot { state := .armed }) = some .busy ∧
      w .reflex [0, 0, 0, 0, 0, 0, 0, 0] run = some .range ∧
      w .reflex [0x0040, 0, 0, 0, 0, 0, 0, 0] run = none ∧ w .output [3] free = some .range ∧
      w .output [2] free = none ∧ w .quota [0, 1, 0, 1, 0] run = some .mode ∧
      w .quota [0, 0, 0, 1, 0] free = some .range ∧ w .quota [512, 512, 0, 1, 0] free = some .quota ∧
      w .quota [224, 512, 1, 64, 9] free = none := by decide +kernel

/-- The field values of each table at the ends of their ranges and past them (R22, R53, R88, R105): the edge
select; the chatter window and the quiet time; an IDLE line in RUN mode; the delay and the width; the
retrigger policy; the reserve, the limit, the policy and the threshold of a quota. -/
theorem witness_TableWritesAreChecked_ranges :
    let w (t : TableSel) (ws : List Word) (s : State) :=
      (after .write { s with tsel := t, tdata := bufferOf ws }).refCode
    let g8 : State := { free with tidx := 8 }
    w .line [0x0007, 0, 0, 1, 0] free = some .range ∧ w .line [0x0007, 0xFFFF, 0xFF, 1, 0] free = none ∧
      w .line [0x0007, 0, 0x100, 1, 0] free = some .range ∧ w .line [0x0007, 1, 0, 0, 0] free = some .range ∧
      w .line [0x0007, 1, 0, 0, 0x100] free = some .range ∧
      w .line [0x0007, 1, 0, 1, 0] (withLine { live with state := .idle }) = some .busy ∧
      w .reflex [0x00C0, 0xFFFF, 0xFF, 0xFFFF, 0xFF, 0, 0, 2] run = none ∧
      w .reflex [0x00C0, 0, 0x100, 0, 0, 0, 0, 0] run = some .range ∧
      w .reflex [0x00C0, 0, 0, 0, 0x100, 0, 0, 0] run = some .range ∧
      w .reflex [0x00C0, 0, 0, 0, 0, 0, 0, 3] run = some .range ∧
      w .quota [513, 512, 0, 1, 0] free = some .range ∧ w .quota [0, 513, 0, 1, 0] free = some .range ∧
      w .quota [2, 1, 0, 1, 0] free = some .range ∧ w .quota [0, 1, 2, 1, 0] free = some .range ∧
      w .quota [0, 1, 0, 0, 0] free = some .range ∧ w .quota [0, 1, 0, 65, 0] free = some .range ∧
      w .quota [7, 8, 0, 1, 0] g8 = some .range ∧ w .quota [8, 8, 0, 1, 0] g8 = none := by decide +kernel

theorem witness_TableEntriesRoundTrip :
    (entry 5).inRange ∧ live.config.chatterWindow ≠ 0 ∧ live.config.quietTime ≠ 0 ∧
      (let q : Quota := ⟨8, 512, .dropOldest, 64, 0⟩
       q.reserve.toNat ≤ q.limit.toNat ∧ 1 ≤ q.limit.toNat ∧ q.limit.toNat ≤ 512 ∧
        1 ≤ q.threshold.toNat ∧ q.threshold.toNat ≤ 64 ∧ 8 ≤ q.reserve.toNat) :=
  ⟨⟨by decide, by decide, by intro r h; cases h⟩, by decide, by decide, by decide⟩

end Sys2Proof.Tests
end

section
/-!
PROOFS. The output lines as the pins and the host see them: the freeze state, the drive enables and the
views OUTDRV and OUTCLM (R89, R90), and the claims of HOSTSET and HOSTCLR (R91).
-/
namespace Sys2Proof.Machine

/-! ### Driven values and pins -/

/-- The driven value by freeze cause (R89, Section 5.4). -/
theorem State.driven_eq (s : State) (n : OutNo) :
    s.driven n = if s.causes.pin || s.causes.command || s.causes.holdover then (s.outputs.get n).safe
      else (s.outputs.get n).claimed := rfl

/-- Claims that are taken at a host access leave the driven values alone. -/
@[simp] theorem State.settled_driven (s : State) : s.settled.driven = s.driven := by
  funext n
  simp only [State.driven_eq, State.settled_causes, State.settled_outputs]

theorem State.pin_of_drive {s : State} {n : OutNo} (h : s.inReset = false)
    (hd : (s.outputs.get n).drive = true) : s.pin n = some (s.driven n) := by
  simp [State.pin, h, hd]

theorem State.pin_of_no_drive {s : State} {n : OutNo} (hd : (s.outputs.get n).drive = false) :
    s.pin n = none := by
  simp [State.pin, hd]

/-- OUTDRV shows the driven value of line n at bit (n mod 16) of word n div 16 (R90). -/
theorem State.getLsbD_readAddr_outdrv (s : State) (n : OutNo) (h : s.inReset = false) :
    (s.readAddr (BitVec.ofNat 8 (0x48 + n.val / 16))).getLsbD (n.val % 16) = s.driven n := by
  have hread := s.readAddr_addr (.outdrv ⟨n.val / 16, by omega⟩) h
  simp only [Register.addr, State.readRegister, State.settled_driven] at hread
  rw [hread, getLsbD_viewWord]

/-- OUTCLM shows the claimed value of line n at bit (n mod 16) of word n div 16 (R90). -/
theorem State.getLsbD_readAddr_outclm (s : State) (n : OutNo) (h : s.inReset = false) :
    (s.readAddr (BitVec.ofNat 8 (0x4A + n.val / 16))).getLsbD (n.val % 16) = (s.outputs.get n).claimed := by
  have hread := s.readAddr_addr (.outclm ⟨n.val / 16, by omega⟩) h
  simp only [Register.addr, State.readRegister, State.settled_outputs] at hread
  rw [hread, getLsbD_viewWord]

/-- Settles O40: the pin and OUTDRV carry `State.driven`, and OUTCLM the claimed value. -/
theorem pinsFollowTheFreezeState : Obligations.PinsFollowTheFreezeState := by
  intro s n hreset o value
  have hdriven : s.driven n = value := s.driven_eq n
  refine ⟨hdriven, fun hd => ?_, State.pin_of_no_drive, ?_, s.getLsbD_readAddr_outclm n hreset⟩
  · rw [State.pin_of_drive hreset hd, hdriven]
  · rw [s.getLsbD_readAddr_outdrv n hreset, hdriven]

/-! ### Claims of the host -/

/-- A word of HOSTSET or HOSTCLR covers line n where n lies in its half and bit (n mod 16) is set (R91). -/
theorem covers_hostMask (half : Fin 2) (w : Word) (n : OutNo) :
    covers (hostMask half w) n = true ↔ n.val / 16 = half.val ∧ w.getLsbD (n.val % 16) = true := by
  simp only [covers, hostMask, BitVec.getLsbD_shiftLeft, BitVec.getLsbD_setWidth, Bool.and_eq_true,
    Bool.not_eq_true', decide_eq_true_eq, decide_eq_false_iff_not]
  by_cases hn : n.val / 16 = half.val
  · have hbit : n.val - 16 * half.val = n.val % 16 := by omega
    have hlow : ¬ n.val < 16 * half.val := by omega
    have hmod : n.val % 16 < 32 := by omega
    simp [hn, hbit, hlow, hmod]
  · have hout : n.val < 16 * half.val ∨ 16 ≤ n.val - 16 * half.val := by omega
    rcases hout with hbelow | habove
    · simp [hn, hbelow]
    · simp [hn, BitVec.getLsbD_of_ge w _ habove]

/-- A host claim finds a covered line that HOST does not own. -/
theorem State.blockedFor_hostMask (s : State) (half : Fin 2) (w : Word) :
    s.blockedFor .host (hostMask half w) = true ↔
      ∃ n : OutNo, (n.val / 16 = half.val ∧ w.getLsbD (n.val % 16) = true) ∧
        (s.outputs.get n).owner ≠ .host := by
  simp only [State.blockedFor, anyIdx_iff, Bool.and_eq_true, covers_hostMask, bne_iff_ne]

/-- A host claim line by line: the covered lines that HOST owns take the value, the others stay (R91). -/
theorem State.hostClaim_get (s : State) (v : Bool) (half : Fin 2) (w : Word) (n : OutNo) :
    (s.hostClaim v half w).outputs.get n =
      if (n.val / 16 = half.val ∧ w.getLsbD (n.val % 16) = true) ∧ (s.outputs.get n).owner = .host then
        { s.outputs.get n with claimed := v } else s.outputs.get n := by
  simp only [State.hostClaim, State.setFlagIf_outputs, Bank.get_mapIdx, Bool.and_eq_true, covers_hostMask,
    beq_iff_eq]

/-- A host claim sets BLOCKED where it covers a line that HOST does not own, and no other flag (R91). -/
theorem State.hostClaim_errFlags (s : State) (v : Bool) (half : Fin 2) (w : Word) :
    (s.hostClaim v half w).errFlags =
      if s.blockedFor .host (hostMask half w) then s.errFlags ||| 0x20 else s.errFlags := by
  simp [State.hostClaim, ErrFlag.bit]

/-- A host claim writes the output lines and the error flags alone. -/
theorem State.hostClaim_eq (s : State) (v : Bool) (half : Fin 2) (w : Word) :
    s.hostClaim v half w =
      { s with outputs := (s.hostClaim v half w).outputs, errFlags := (s.hostClaim v half w).errFlags } := by
  obtain ⟨os, fl, h⟩ := s.hostClaim_frame v half w
  rw [h]

/-- HOSTSET is the host claim of 1 on the settled state (R55, R91). -/
theorem exec_hostset (half : Fin 2) (w : Word) (s : State) (h : s.inReset = false) :
    exec (.hostset half w) s = .next (s.settled.hostClaim true half w) := by
  rw [exec, execHostset, hostWrite_running _ _ _ h]

/-- HOSTCLR is the host claim of 0 on the settled state (R55, R91). -/
theorem exec_hostclr (half : Fin 2) (w : Word) (s : State) (h : s.inReset = false) :
    exec (.hostclr half w) s = .next (s.settled.hostClaim false half w) := by
  rw [exec, execHostclr, hostWrite_running _ _ _ h]

/-- Settles O41: both commands are a host claim on the settled state, whose output lines are those of the
state before it. -/
theorem hostClaimsItsLines : Obligations.HostClaimsItsLines := by
  intro half w s hreset covered flags claimed
  have hlines (v : Bool) : claimed v (s.settled.hostClaim v half w).outputs := fun n => by
    rw [State.hostClaim_get, State.settled_outputs]
  have hflags (v : Bool) : (s.settled.hostClaim v half w).errFlags = flags := by
    simp only [State.hostClaim_errFlags, State.blockedFor_hostMask, State.settled_outputs, flags, covered]
  have hclaim (v : Bool) : s.settled.hostClaim v half w =
      { s.settled with outputs := (s.settled.hostClaim v half w).outputs, errFlags := flags } := by
    rw [← hflags v, ← State.hostClaim_eq]
  refine ⟨⟨_, hlines true, ?_⟩, ⟨_, hlines false, ?_⟩,
    s.readAddr_addr (.hostset half) hreset, s.readAddr_addr (.hostclr half) hreset⟩
  · rw [exec_hostset half w s hreset, ← hclaim true]
  · rw [exec_hostclr half w s hreset, ← hclaim false]

end Sys2Proof.Machine
end

section
/-!
PROOFS. What the host reads of the slots and of the input lines: the slot states in RFXST (R126), the
qualified levels in INLVL and the suppressed lines in INSUP (R44), and the refusal of writes to them.
-/
namespace Sys2Proof.Machine

/-! ### The four-bit fields of RFXST -/

theorem SlotState.code_toNat (x : SlotState) :
    x.code.toNat = match x with
      | .disarmed => 0 | .armed => 1 | .delaying => 2 | .active => 3 | .holding => 4 := by
  cases x <;> rfl

/-- A slot state fits its four-bit field. -/
theorem SlotState.code_toNat_lt (x : SlotState) : x.code.toNat < 2 ^ 4 := by
  cases x <;> decide

theorem SlotState.getLsbD_code_of_le (x : SlotState) {j : Nat} (hj : 4 ≤ j) : x.code.getLsbD j = false :=
  Nat.testBit_lt_two_pow (x.code_toNat_lt.trans_le (Nat.pow_le_pow_right Nat.two_pos hj))

/-- A slot state put at field m shows at field k only where the two are the same field. -/
theorem SlotState.getLsbD_code_shiftLeft (x : SlotState) (m k : Fin 4) {j : Nat} (hj : j < 4) :
    (x.code <<< (4 * m.val)).getLsbD (4 * k.val + j) = (decide (m = k) && x.code.getLsbD j) := by
  rw [BitVec.getLsbD_shiftLeft]
  rcases Nat.lt_trichotomy m.val k.val with hlt | heq | hgt
  · rw [x.getLsbD_code_of_le (by omega)]
    simp [Fin.ne_of_val_ne hlt.ne]
  · obtain rfl := Fin.ext heq
    have hin : 4 * m.val + j < 16 := by omega
    simp [hin]
  · have hbelow : 4 * k.val + j < 4 * m.val := by omega
    simp [hbelow, Fin.ne_of_val_ne hgt.ne']

theorem State.rfxstWord_eq_fields (s : State) (w : Fin 4) :
    s.rfxstWord w =
      (s.slots.get ⟨4 * w.val, by omega⟩).state.code <<< (4 * (0 : Fin 4).val)
        ||| (s.slots.get ⟨4 * w.val + 1, by omega⟩).state.code <<< (4 * (1 : Fin 4).val)
        ||| (s.slots.get ⟨4 * w.val + 2, by omega⟩).state.code <<< (4 * (2 : Fin 4).val)
        ||| (s.slots.get ⟨4 * w.val + 3, by omega⟩).state.code <<< (4 * (3 : Fin 4).val) := by
  simp [State.rfxstWord]

/-- RFXST word w shows in its field k the slot 4 w + k (R126). -/
theorem State.extractLsb'_rfxstWord (s : State) (w k : Fin 4) :
    (s.rfxstWord w).extractLsb' (4 * k.val) 4 =
      (s.slots.get ⟨4 * w.val + k.val, by omega⟩).state.code.setWidth 4 := by
  apply BitVec.eq_of_getLsbD_eq
  intro j hj
  have hfield (x : SlotState) (m : Fin 4) := x.getLsbD_code_shiftLeft m k hj
  rw [State.rfxstWord_eq_fields]
  simp only [BitVec.getLsbD_extractLsb', BitVec.getLsbD_or, BitVec.getLsbD_setWidth, hfield]
  match k with
  | 0 | 1 | 2 | 3 => simp [hj]

@[simp] theorem State.settled_rfxstWord (s : State) (w : Fin 4) : s.settled.rfxstWord w = s.rfxstWord w := by
  simp only [State.rfxstWord, State.settled_slots]

/-- RFXST shows the state of slot i in field (i mod 4) of word i div 4 (R126). -/
theorem State.toNat_readAddr_rfxst (s : State) (i : SlotNo) (h : s.inReset = false) :
    ((s.readAddr (BitVec.ofNat 8 (0x59 + i.val / 4))).extractLsb' (4 * (i.val % 4)) 4).toNat =
      (s.slots.get i).state.code.toNat := by
  have hread := s.readAddr_addr (.rfxst ⟨i.val / 4, by omega⟩) h
  have hfield := s.extractLsb'_rfxstWord ⟨i.val / 4, by omega⟩ ⟨i.val % 4, by omega⟩
  simp only [Register.addr, State.readRegister, State.settled_rfxstWord] at hread
  simp only [Nat.div_add_mod, Fin.eta] at hfield
  rw [hread, hfield, BitVec.toNat_setWidth, Nat.mod_eq_of_lt (SlotState.code_toNat_lt _)]

/-! ### The lines in INLVL and INSUP -/

/-- INLVL shows the qualified level of line n at bit (n mod 16) of word n div 16 (R44). -/
theorem State.getLsbD_readAddr_inlvl (s : State) (n : LineNo) (h : s.inReset = false) :
    (s.readAddr (BitVec.ofNat 8 (0x40 + n.val / 16))).getLsbD (n.val % 16) = (s.lines.get n).level := by
  have hread := s.readAddr_addr (.inlvl ⟨n.val / 16, by omega⟩) h
  simp only [Register.addr, State.readRegister, State.settled_lines] at hread
  rw [hread, getLsbD_viewWord]

/-- INSUP shows whether line n is SUPPRESSED at bit (n mod 16) of word n div 16 (R44). -/
theorem State.getLsbD_readAddr_insup (s : State) (n : LineNo) (h : s.inReset = false) :
    (s.readAddr (BitVec.ofNat 8 (0x44 + n.val / 16))).getLsbD (n.val % 16) =
      ((s.lines.get n).state == .suppressed) := by
  have hread := s.readAddr_addr (.insup ⟨n.val / 16, by omega⟩) h
  simp only [Register.addr, State.readRegister, State.settled_lines] at hread
  rw [hread, getLsbD_viewWord]

/-- A line that is not sampled, or whose level is not established, has level 0 (R23, R24, R27). -/
theorem LineSafe.level_eq_false {l : Line} (hl : LineSafe l)
    (h : l.state = .off ∨ l.state = .idle ∨ l.established = false) : l.level = false := by
  rcases h with hoff | hidle | hopen
  · exact (hl.unsampled_clear (.inl hoff)).1
  · exact (hl.unsampled_clear (.inr hidle)).1
  · exact (hl.unestablished_clear hopen).1

/-! ### Writes -/

/-- A write to a register that takes none is refused with READONLY (R188). -/
theorem exec_registerWrite_readonly {r : Register} {w : Word} {s : State} (h : s.inReset = false)
    (hr : registerOp r w s.settled = .error .readonly) :
    exec (.registerWrite r.addr w) s = .next (s.settled.refuse .readonly r.addr) := by
  rw [exec_registerWrite r w s h, hr]

/-- The eight words from 0x40 are those of INLVL and, behind them, those of INSUP (Section 10.2). -/
theorem exec_registerWrite_inputView (k : Fin 8) (w : Word) (s : State) (h : s.inReset = false) :
    exec (.registerWrite (BitVec.ofNat 8 (0x40 + k)) w) s =
      .next (s.settled.refuse .readonly (BitVec.ofNat 8 (0x40 + k))) := by
  by_cases hk : k.val < 4
  · exact exec_registerWrite_readonly (r := .inlvl ⟨k.val, hk⟩) h rfl
  · have haddr : BitVec.ofNat 8 (0x40 + k) = (Register.insup ⟨k.val - 4, by omega⟩).addr :=
      congrArg (BitVec.ofNat 8) (show 0x40 + k.val = 0x44 + (k.val - 4) by omega)
    rw [haddr]
    exact exec_registerWrite_readonly h rfl

/-- Settles O33: each view is read through its register, and none of the registers takes a write. -/
theorem slotStatesAreShown : Obligations.SlotStatesAreShown := by
  intro s hreset
  refine ⟨fun i => ?_, fun n => ⟨s.getLsbD_readAddr_inlvl n hreset, LineSafe.level_eq_false, ?_⟩,
    fun w k => exec_registerWrite_readonly (r := .rfxst k) hreset rfl,
    fun w k => exec_registerWrite_inputView k w s hreset⟩
  · exact (s.toNat_readAddr_rfxst i hreset).trans (SlotState.code_toNat _)
  · rw [s.getLsbD_readAddr_insup n hreset, beq_iff_eq]

end Sys2Proof.Machine
end

section
/-!
PROOFS. The selection of the table access port: the writes and the reads of TSEL and TIDX (R193). Under
them, what the settling before a host access leaves of the queues: their quotas.
-/
namespace Sys2Proof.Machine

/-! ### The settling leaves the quotas -/

/-- A queue replaced by one of the same quota changes no quota. -/
theorem Bank.get_set_quota {qs : Bank Queue 9} {g : GroupNo} {q : Queue}
    (hq : q.quota = (qs.get g).quota) (k : GroupNo) :
    ((qs.set g q).get k).quota = (qs.get k).quota := by
  rw [Bank.get_set]
  split
  · next hk => rw [hq, hk]
  · rfl

theorem State.present_quota (s : State) (g k : GroupNo) :
    ((s.present g).queues.get k).quota = (s.queues.get k).quota :=
  Bank.get_set_quota (by rfl) k

theorem State.admissionNotice_quota (s : State) (g : GroupNo) (b : Bool) (k : GroupNo) :
    ((s.admissionNotice g b).queues.get k).quota = (s.queues.get k).quota := by
  unfold State.admissionNotice
  split
  · exact s.present_quota g k
  · rfl

theorem State.enterRecord_quota (s : State) (g : GroupNo) (r : Record) (k : GroupNo) :
    ((s.enterRecord g r).queues.get k).quota = (s.queues.get k).quota :=
  (State.admissionNotice_quota _ _ _ k).trans (Bank.get_set_quota (by rfl) k)

theorem State.dropNew_quota (s : State) (g k : GroupNo) :
    ((s.dropNew g).queues.get k).quota = (s.queues.get k).quota :=
  Bank.get_set_quota (by rfl) k

theorem State.dropOldest_quota (s : State) (g : GroupNo) (r : Record) (k : GroupNo) :
    ((s.dropOldest g r).queues.get k).quota = (s.queues.get k).quota := by
  simp only [State.dropOldest]
  generalize (if (s.groups.get g).presented.isSome = true then 1 else 0) = i
  split
  · exact s.dropNew_quota g k
  · split
    · exact Bank.get_set_quota (by rfl) k
    · exact Bank.get_set_quota (by rfl) k

/-- Neither admission nor overflow changes a quota. -/
theorem State.takeRecord_quota (s : State) (g : GroupNo) (r : Record) (k : GroupNo) :
    ((s.takeRecord g r).queues.get k).quota = (s.queues.get k).quota := by
  unfold State.takeRecord
  split
  · exact s.enterRecord_quota g r k
  · split
    · exact s.dropNew_quota g k
    · exact s.dropOldest_quota g r k

theorem State.takeClaim_quota (s : State) (k : GroupNo) :
    (s.takeClaim.queues.get k).quota = (s.queues.get k).quota := by
  unfold State.takeClaim
  split
  · rfl
  · exact State.takeRecord_quota _ _ _ k

theorem State.takeEventClaims_quota (n : Nat) (s : State) (k : GroupNo) :
    ((State.takeEventClaims n s).queues.get k).quota = (s.queues.get k).quota := by
  induction n generalizing s with
  | zero => rfl
  | succ n ih =>
    unfold State.takeEventClaims
    split
    · exact (ih s.takeClaim).trans (s.takeClaim_quota k)
    · rfl

@[simp] theorem State.settled_quota (s : State) (k : GroupNo) :
    (s.settled.queues.get k).quota = (s.queues.get k).quota :=
  State.takeEventClaims_quota _ s k

/-! ### The two outcomes of a REGISTER_WRITE -/

theorem exec_registerWrite_taken {r : Register} {w : Word} {s t : State} (h : s.inReset = false)
    (ht : registerOp r w s.settled = .ok t) : exec (.registerWrite r.addr w) s = .next t := by
  rw [exec_registerWrite r w s h, ht]

theorem exec_registerWrite_refused {r : Register} {w : Word} {s : State} {c : RefCode}
    (h : s.inReset = false) (hc : registerOp r w s.settled = .error c) :
    exec (.registerWrite r.addr w) s = .next (s.settled.refuse c r.addr) := by
  rw [exec_registerWrite r w s h, hc]

/-! ### TSEL and TIDX -/

theorem tselOp_code (sel : TableSel) (s : State) : tselOp sel.code s = .ok { s with tsel := sel } := by
  cases sel <;> rfl

theorem tselOp_of_gt {w : Word} (h : 5 < w.toNat) (s : State) : tselOp w s = .error .range := by
  unfold tselOp
  split
  case h_7 => rfl
  all_goals omega

theorem tidxOp_of_le {w : Word} (h : w.toNat ≤ 255) (s : State) :
    tidxOp w s = .ok { s with tidx := w.extractLsb' 0 8 } :=
  if_pos (Nat.lt_succ_of_le h)

theorem tidxOp_of_gt {w : Word} (h : 255 < w.toNat) (s : State) : tidxOp w s = .error .range :=
  if_neg (Nat.not_lt.2 h)

/-- An index that TIDX takes is kept whole in its eight bits. -/
theorem toNat_extractLsb'_of_le {w : Word} (h : w.toNat ≤ 255) : (w.extractLsb' 0 8).toNat = w.toNat := by
  rw [BitVec.extractLsb'_toNat, Nat.shiftRight_zero, Nat.mod_eq_of_lt (Nat.lt_succ_of_le h)]

/-- TSEL reads the code of the table selected. -/
theorem State.readAddr_tsel (s : State) (h : s.inReset = false) : s.readAddr 0x70 = s.tsel.code := by
  have hread := s.readAddr_addr .tsel h
  simpa only [Register.addr, State.readRegister, State.settled_tsel] using hread

/-- TIDX reads the index, with 0 above its eight bits. -/
theorem State.toNat_readAddr_tidx (s : State) (h : s.inReset = false) :
    (s.readAddr 0x71).toNat = s.tidx.toNat := by
  have hread := s.readAddr_addr .tidx h
  simp only [Register.addr, State.readRegister, State.settled_tidx] at hread
  rw [hread, BitVec.toNat_setWidth_of_le (by decide)]

/-- Settles O10: the writes go by `tselOp` and `tidxOp` on the settled state, which is the state before it
in all that the port reaches. -/
theorem tableSelectAndIndexAreWritten : Obligations.TableSelectAndIndexAreWritten := by
  intro w s hreset
  refine ⟨fun sel hw => ?_, ⟨rfl, rfl, rfl, rfl, rfl, rfl⟩, fun hout => ?_, fun hin => ?_, fun hout => ?_,
    s.readAddr_tsel hreset, s.toNat_readAddr_tidx hreset, s.settled_tsel, s.settled_tidx, s.settled_mode,
    s.settled_tdata, s.settled_lines, s.settled_slots, s.settled_outputs, s.settled_sched, s.settled_quota⟩
  · subst hw
    exact exec_registerWrite_taken (r := .tsel) hreset (tselOp_code sel _)
  · exact exec_registerWrite_refused (r := .tsel) hreset (tselOp_of_gt hout _)
  · exact ⟨w.extractLsb' 0 8, toNat_extractLsb'_of_le hin,
      exec_registerWrite_taken (r := .tidx) hreset (tidxOp_of_le hin _)⟩
  · exact exec_registerWrite_refused (r := .tidx) hreset (tidxOp_of_gt hout _)

end Sys2Proof.Machine
end

section
/-!
PROOFS. What a command can do, said once. A command is a run of moves, each the work of one unit, and for
TICK and START a last act behind them. Every invariant of a step is derived from the moves, and so is what
TICK leaves of the host's settings: the moves of a tick are those that need no command beyond it.
-/
namespace Sys2Proof.Machine

/-! ### Moves -/

/-- What a happening of the tick makes of one line: its pending change qualifies (R31 to R40), or it is
released (R41). -/
inductive LineWork (l : Line) : Line → Prop
  | qualified (v o k) (h : l.qualifier = .pending v o k) : LineWork l (l.qualified v)
  | recorded (v o k w) (h : l.qualifier = .pending v o k) : LineWork l ((l.recorded o w).qualified v)
  | suppressed (v o k) (h : l.qualifier = .pending v o k) (hl : l.state = .live) :
      LineWork l (l.suppressedBy.qualified v)
  | restarted (v o k) (h : l.qualifier = .pending v o k) (hl : l.state = .suppressed) :
      LineWork l (l.restarted.qualified v)
  | released (hl : l.state = .suppressed) : LineWork l l.released

/-- What an accepted write of its entry makes of a line (R22 to R24). -/
inductive LineWrite (m : Mode) (l : Line) : Line → Prop
  | off (c : LineConfig) (h : c.on = false) : LineWrite m l ({ l with config := c }.quieted .off)
  | idle (c : LineConfig) (h : c.on = true) (hm : m = .config) :
      LineWrite m l ({ l with config := c }.quieted .idle)
  | live (c : LineConfig) (h : c.on = true) (hm : m = .run) : LineWrite m l { l with config := c }.enterLive

/-- The moves of the Record Pool and the Delivery Unit. `more` allows those that are no work of a tick. -/
inductive PoolMove (more : Prop) (s : State) : State → Prop
  | claim : PoolMove more s s.takeClaim
  | age (g) : PoolMove more s (s.setGroup g { s.groups.get g with ageTimer := none, ageMark := true })
  | free (hm : more) (g w) (h : (s.groups.get g).presented = some w) : PoolMove more s (s.freePresented g)
  | flush (hm : more) (g) : PoolMove more s (s.flushGroup g)
  | deliver (hm : more) (g on) : PoolMove more s (s.setDeliver g on)
  | irq (hm : more) (w : Word) : PoolMove more s
      { s with groups := s.groups.mapIdx fun g x => { x with irqEnable := w.getLsbD g.val } }
  | quota (hm : more) (g q)
      (h : (s.setQueue g { s.queues.get g with quota := q }).quotaBreaks g = false) :
      PoolMove more s (s.setQueue g { s.queues.get g with quota := q })

/-- The moves of the Reflex Unit. -/
inductive ReflexMove (more : Prop) (s : State) : State → Prop
  | trigger (i v) (h : s.tb.state ≠ .stopped) : ReflexMove more s (s.triggerSlot i v)
  | assert (i) (h : s.tb.state ≠ .stopped) (hx : (s.slots.get i).state = .delaying) :
      ReflexMove more s (s.assertSlot i)
  | complete (i c b st) (h : (s.slots.get i).state = .active ∨ (s.slots.get i).state = .holding)
      (hst : s.tb.state = .stopped → st.unsync = true) : ReflexMove more s (s.completePulse i c b st)
  | disarm (hm : more) (i c) : ReflexMove more s (s.disarmSlot i c)
  | arm (hm : more) (i) (hr : s.mode = .run) (h : (s.slots.get i).state = .disarmed) :
      ReflexMove more s (s.setSlot i { s.slots.get i with state := .armed, firings := 0 })
  | configure (hm : more) (i c) (h : (s.slots.get i).state = .disarmed) :
      ReflexMove more s (s.setSlot i { s.slots.get i with config := c })

/-- The moves of the Schedule Unit. -/
inductive ScheduleMove (more : Prop) (s : State) : State → Prop
  | fire (a rest) (hr : s.tb.state ≠ .stopped) (h : s.sched.active = a :: rest) :
      ScheduleMove more s
        ((s.setSched { s.sched with active := rest }).fireEntry a.entry false true s.tickStamp)
  | start (h : s.sched.commit ≠ .applying) : ScheduleMove more s s.startApplying
  | finish (hm : more) : ScheduleMove more s s.finishCommit
  | stage (hm : more) (o : StagedOp) (h : s.sched.commit = .open_) (hl : s.sched.staging.length < 64)
      (ho : o.inRange) : ScheduleMove more s (s.setSched { s.sched with staging := s.sched.staging ++ [o] })
  | discard (hm : more) (h : s.sched.commit = .open_) :
      ScheduleMove more s (s.setSched { s.sched with staging := [] })
  | arm (hm : more) (h : s.sched.commit = .open_) :
      ScheduleMove more s (s.setSched { s.sched with commit := .armed })
  | abort (hm : more) (h : s.sched.commit = .armed) :
      ScheduleMove more s (s.setSched { s.sched with commit := .open_ })
  | settings (hm : more) (cat : Time) (sarg : Word) :
      ScheduleMove more s (s.setSched { s.sched with cat := cat, sarg := sarg })
  | insert (hm : more) (e) (h : s.nextOp = some (.insert e)) (hl : s.sched.active.length < 256)
      (hr : reached s.tb.counter e.due = false) : ScheduleMove more s (s.countOp (.ok (s.enterActive e)))
  | late (hm : more) (e) (h : s.nextOp = some (.insert e)) (hl : s.sched.active.length < 256) :
      ScheduleMove more s (s.countOp (.ok (s.fireLate e)))
  | remove (hm : more) (o keep) (h : s.nextOp = some o) (hk : keep.Sublist s.sched.active) :
      ScheduleMove more s (s.countOp (.ok (s.removeActive keep)))
  | refuse (hm : more) (o why) (h : s.nextOp = some o) : ScheduleMove more s (s.countOp (.error why))

/-- The Timebase `u` is `t` with other settings, in the ranges of R7 where those of `t` are. -/
def Timebase.Resets (t u : Timebase) : Prop :=
  (∃ td pe tol sl ml bl la ts, u = { t with
    tickDiv := td, period := pe, tolerance := tol, slewLimit := sl, missLimit := ml, badLimit := bl
    latch := la, tbset := ts }) ∧
  (1 ≤ t.tickDiv.toNat ∧ t.tickDiv.toNat ≤ 4096 → 1 ≤ u.tickDiv.toNat ∧ u.tickDiv.toNat ≤ 4096) ∧
  (t.period ≠ 0 → u.period ≠ 0) ∧ (t.missLimit ≠ 0 → u.missLimit ≠ 0) ∧ (t.badLimit ≠ 0 → u.badLimit ≠ 0)

/-- The moves of the Timebase but its ticks and its START. -/
inductive TimebaseMove (more : Prop) (s : State) : State → Prop
  | expire (h : s.tb.expiryDue = true) :
      TimebaseMove more s (s.setTb { s.tb.expire.tb with tickState := s.tb.expire.tb.state })
  | stop (hm : more) (h : s.mode = .config) : TimebaseMove more s (s.setTb s.tb.stopped)
  | adjust (hm : more) (h : s.tb.state ≠ .stopped) : TimebaseMove more s (s.setTb s.tb.adjust)
  | switches (hm : more) (a b c) : TimebaseMove more s (s.withSwitches a b c)
  | settings (hm : more) (t) (h : s.tb.Resets t) : TimebaseMove more s (s.setTb t)

/-- The moves of the Input Unit. -/
inductive InputMove (more : Prop) (s : State) : State → Prop
  | work (n l) (h : LineWork (s.lines.get n) l) : InputMove more s (s.setLine n l)
  | write (hm : more) (n l) (h : LineWrite s.mode (s.lines.get n) l) : InputMove more s (s.setLine n l)

/-- The moves of the Output Stage but a freeze, which is a plain move and an offer. -/
inductive OutputMove (more : Prop) (s : State) : State → Prop
  | claim (hm : more) (v half w) : OutputMove more s (s.hostClaim v half w)
  | write (hm : more) (n e) : OutputMove more s (s.writeOut n e)

/-- The moves that concern several units. -/
inductive PartMove (more : Prop) (s : State) : State → Prop
  | preset (hm : more) (h : s.tb.state = .stopped) (ha : s.sched.active = []) :
      PartMove more s (s.setTb { s.tb with counter := s.tb.tbset, epoch := s.tb.epoch + 1 }).runNotice
  | run (hm : more) (h : s.tb.state ≠ .stopped) :
      PartMove more s { s with mode := .run, lines := s.lines.map Line.onRun }
  | halt (hm : more) : PartMove more s s.halt
  | softReset (hm : more) : PartMove more s s.softResetValues
  | deviceReset (hm : more) (b) : PartMove more s { s.deviceResetValues with inReset := b }

/-- One move of the part: the work of a unit, a record offered, or a change of what no unit's rule rests on
(the levels of pins, the freeze causes, the error flags and what Mode and Error Control and the window hold).
REFUSED is no flag that a tick sets. -/
inductive Move (more : Prop) (s : State) : State → Prop
  | pool {t} (h : PoolMove more s t) : Move more s t
  | reflex {t} (h : ReflexMove more s t) : Move more s t
  | schedule {t} (h : ScheduleMove more s t) : Move more s t
  | timebase {t} (h : TimebaseMove more s t) : Move more s t
  | input {t} (h : InputMove more s t) : Move more s t
  | output {t} (h : OutputMove more s t) : Move more s t
  | part {t} (h : PartMove more s t) : Move more s t
  | offer (src b r) (h : s.tb.state = .stopped → r.flags.unsync = true) : Move more s (s.offer src b r)
  | marks (cs fl d) (h : fl.getLsbD 0 = true → s.errFlags.getLsbD 0 = true ∨ more) :
      Move more s { s with causes := cs, errFlags := fl, drawn := d }
  | window (hm : more) (fz rd ws en rc ra ts ti td) : Move more s { s with
      frzn := fz, readData := rd, wsel := ws, errEnable := en, refCode := rc, refAddr := ra, tsel := ts
      tidx := ti, tdata := td }

/-- A run of moves. -/
abbrev Moves (more : Prop) : State → State → Prop := Relation.ReflTransGen (Move more)

theorem Move.single {more : Prop} {s t : State} (h : Move more s t) : Moves more s t :=
  Relation.ReflTransGen.single h

theorem Moves.refl {more : Prop} {s : State} : Moves more s s := Relation.ReflTransGen.refl

/-- What every move keeps, a run of moves keeps. -/
theorem Moves.keeps {more : Prop} {P : State → Prop} (hP : ∀ s t, Move more s t → P s → P t)
    {s t : State} (h : Moves more s t) (hs : P s) : P t := by
  induction h with
  | refl => exact hs
  | tail _ h ih => exact hP _ _ h ih

/-- Moves made for every number, one after another. -/
theorem moves_forEach {more : Prop} {n : Nat} {f : Fin n → State → State}
    (h : ∀ i t, Moves more t (f i t)) (s : State) : Moves more s (forEach f s) :=
  forEach_keeps (P := Moves more s) (fun i t ht => ht.trans (h i t)) Moves.refl

/-- Moves made where a happening of the tick is due; the Timebase then runs. -/
theorem moves_whenTickDue {more : Prop} {s : State} {b : Bool} {f : State → State}
    (h : s.tb.state ≠ .stopped → b = true → Moves more s (f s)) : Moves more s (s.whenTickDue b f) := by
  rcases s.whenTickDue_cases b f with ⟨hr, hb, e⟩ | ⟨-, e⟩
  · rw [e]; exact h hr hb
  · rw [e]

/-! ### The happenings of a tick -/

section Happenings
variable {more : Prop}

/-- A flag other than REFUSED leaves REFUSED (R178). -/
theorem getLsbD_or_flag (fl : BitVec 7) {f : ErrFlag} (hf : f ≠ .refused) :
    (fl ||| f.bit).getLsbD 0 = fl.getLsbD 0 := by
  have hbit : f.bit.getLsbD 0 = false := by
    cases f
    case refused => exact absurd rfl hf
    all_goals rfl
  rw [BitVec.getLsbD_or, hbit, Bool.or_false]

theorem moves_setFlagIf (s : State) (c : Bool) {f : ErrFlag} (hf : f ≠ .refused) :
    Moves more s (s.setFlagIf c f) := by
  cases c
  · exact Moves.refl
  · exact (Move.marks s.causes _ s.drawn fun h => .inl ((getLsbD_or_flag _ hf).symm.trans h)).single

theorem moves_addCause (s : State) (c : Cause) (b : Bool) (st : Stamp)
    (h : s.tb.state = .stopped → st.unsync = true) : Moves more s (s.addCause c b st) := by
  unfold State.addCause
  simp only
  split
  · exact (Move.marks _ s.errFlags s.drawn .inl).single
  · exact ((Move.marks (s.causes.add c) s.errFlags s.drawn .inl).single.tail (Move.offer _ _ _ h)).tail
      (Move.marks (s.causes.add c) _ s.drawn fun hf => .inl ((getLsbD_or_flag _ (f := .frozen) nofun).symm.trans hf))

/-- The records of a Timebase happening and its notice to the Output Stage, once the Timebase stands as it
answered and runs. -/
theorem moves_timebaseEffect (s : State) (x : TbEffect) (h : x.tb.state ≠ .stopped) :
    Moves more (s.setTb x.tb) (s.timebaseEffect x) := by
  have hoffer : ∀ (es : List SyncEvent) (t : State), t.tb.state ≠ .stopped →
      Moves more t (es.foldl (fun t e => t.offer .timebase true (syncRecord e t.tickStamp)) t) := by
    intro es
    induction es with
    | nil => exact fun t _ => Moves.refl
    | cons e es ih =>
      exact fun t ht => (ih (t.offer .timebase true (syncRecord e t.tickStamp)) ht).head
        (Move.offer _ _ _ fun hstop => absurd hstop ht)
  unfold State.timebaseEffect
  simp only
  refine ((hoffer x.events (s.setTb x.tb) h).trans
    (moves_setFlagIf _ (x.events.any SyncEvent.raises) (f := .sync) nofun)).trans ?_
  split
  · exact moves_addCause _ _ _ _ fun _ => rfl
  · exact Moves.refl

theorem Timebase.expire_state_ne_stopped {t : Timebase} (h : t.state ≠ .stopped) :
    t.expire.tb.state ≠ .stopped := by
  unfold Timebase.expire
  split
  · exact nofun
  · exact h

theorem Timebase.state_of_expiryDue {t : Timebase} (h : t.expiryDue = true) : t.state = .locked := by
  simp only [Timebase.expiryDue, Bool.and_eq_true, decide_eq_true_eq] at h
  exact h.1

/-- What the miss timer's expiry answers as a happening of its own: the state after it is the state of its
tick (R18). -/
def Timebase.expiry (t : Timebase) : TbEffect :=
  { t.expire with tb := { t.expire.tb with tickState := t.expire.tb.state } }

theorem State.missExpiry_due {s : State} (h : s.tb.expiryDue = true) :
    s.missExpiry = s.timebaseEffect s.tb.expiry := by
  simp only [State.missExpiry, h, State.whenDue_true]
  rfl

theorem moves_missExpiry (s : State) : Moves more s s.missExpiry := by
  by_cases hd : s.tb.expiryDue = true
  · have hrun : s.tb.state ≠ .stopped := by rw [Timebase.state_of_expiryDue hd]; exact nofun
    rw [State.missExpiry_due hd]
    exact (moves_timebaseEffect s s.tb.expiry (Timebase.expire_state_ne_stopped hrun)).head
      (Move.timebase (TimebaseMove.expire hd))
  · rw [State.missExpiry_eq s (Bool.eq_false_iff.2 hd)]

theorem moves_passChange (s : State) (n : LineNo) (v : Bool) (f : LineNo → Bool)
    (h : s.tb.state ≠ .stopped) : Moves more s (s.passChange n v f) := by
  refine (forEach_keeps (P := fun t => Moves more s t ∧ t.tb.state ≠ .stopped) (fun i t ht => ?_)
    ⟨Moves.refl, h⟩).1
  split
  · refine ⟨ht.1.tail (Move.reflex (ReflexMove.trigger i v ht.2)), ?_⟩
    obtain ⟨_, _, _, _, e⟩ := reflexOnly_triggerSlot t i v
    rw [e]
    exact ht.2
  · exact ht

theorem moves_recordEdge (s : State) (n : LineNo) (v : Bool) (o : Onset) (k : Nat)
    (w : Option ChatterWindow) (h : s.tb.state ≠ .stopped) (hq : (s.lines.get n).qualifier = .pending v o k) :
    Moves more s (s.recordEdge n v o w) := by
  have hmoves := (Move.input (more := more) (InputMove.work n _ (LineWork.recorded v o k w hq))).single.tail
    (Move.offer (.input n) true (edgeRecord n (s.lines.get n) v o (Config.openInterval s.drawn))
      fun hstop => absurd hstop h)
  refine hmoves.trans ?_
  unfold State.recordEdge State.drawIf
  simp only
  split
  · exact (Move.marks _ _ (s.drawn + 1) .inl).single
  · exact Moves.refl

theorem State.recordEdge_tb (s : State) (n : LineNo) (v : Bool) (o : Onset) (w : Option ChatterWindow) :
    (s.recordEdge n v o w).tb = s.tb := by
  obtain ⟨_, _, _, e⟩ := s.recordEdge_frame n v o w
  rw [e]

theorem moves_qualify (s : State) (n : LineNo) : Moves more s (s.qualify n) := by
  refine moves_whenTickDue fun hrun _ => ?_
  split
  · exact Moves.refl
  · next v o k hq =>
    unfold State.handleChange
    simp only
    split
    · next hl =>
      split
      · split
        · exact (moves_recordEdge s n v o k _ hrun hq).trans
            (moves_passChange _ _ _ _ (by rw [State.recordEdge_tb]; exact hrun))
        · exact (Move.input (InputMove.work n _ (LineWork.suppressed v o k hq hl))).single.tail
            (Move.offer _ _ _ fun hstop => absurd hstop hrun)
      · exact (Move.input (InputMove.work n _ (LineWork.qualified v o k hq))).single.trans
          (moves_passChange _ _ _ _ hrun)
    · next hl => exact (Move.input (InputMove.work n _ (LineWork.restarted v o k hq hl))).single
    · exact (Move.input (InputMove.work n _ (LineWork.qualified v o k hq))).single
    · exact (Move.input (InputMove.work n _ (LineWork.qualified v o k hq))).single

theorem moves_releaseIfDue (s : State) (n : LineNo) : Moves more s (s.releaseIfDue n) := by
  refine moves_whenTickDue fun hrun hd => ?_
  have hl : (s.lines.get n).state = .suppressed := by
    simp only [State.releaseDue, Bool.and_eq_true, beq_iff_eq] at hd
    exact hd.1.1
  have hrel := (Move.input (more := more) (InputMove.work n _ (LineWork.released hl))).single.tail
    (Move.offer (.input n) true (releaseRecord n (s.lines.get n) s.tickStamp) fun hstop => absurd hstop hrun)
  unfold State.releaseLine
  simp only
  split
  · exact hrel
  · exact hrel.tail (Move.offer _ _ _ fun hstop => absurd hstop hrun)

theorem moves_delayOut (s : State) (i : SlotNo) : Moves more s (s.delayOut i) := by
  refine moves_whenTickDue fun hrun hd => (Move.reflex (ReflexMove.assert i hrun ?_)).single
  simp only [State.delayDue, Bool.and_eq_true, beq_iff_eq] at hd
  exact hd.1

theorem moves_widthOut (s : State) (i : SlotNo) : Moves more s (s.widthOut i) := by
  refine moves_whenTickDue fun hrun hd =>
    (Move.reflex (ReflexMove.complete i _ _ _ (Or.inl ?_) fun hstop => absurd hstop hrun)).single
  simp only [State.widthDue, Bool.and_eq_true, beq_iff_eq] at hd
  exact hd.1

theorem moves_fireHead (s : State) : Moves more s s.fireHead := by
  refine moves_whenTickDue fun hrun hd => ?_
  split
  · exact Moves.refl
  · next a rest ha => exact (Move.schedule (ScheduleMove.fire a rest hrun ha)).single

theorem moves_fireHeads (n : Nat) (s : State) : Moves more s (State.fireHeads n s) := by
  induction n generalizing s with
  | zero => exact Moves.refl
  | succ n ih => exact (moves_fireHead s).trans (ih _)

theorem moves_commitReached (s : State) : Moves more s s.commitReached := by
  refine moves_whenTickDue fun _ hd => (Move.schedule (ScheduleMove.start ?_)).single
  simp only [State.commitDue, Bool.and_eq_true, beq_iff_eq] at hd
  rw [hd.1]
  exact nofun

theorem moves_ageRunsOut (s : State) (g : GroupNo) : Moves more s (s.ageRunsOut g) :=
  moves_whenTickDue fun _ _ => (Move.pool (PoolMove.age g)).single

theorem moves_finishCapture (s : State) : Moves more s s.finishCapture :=
  (((moves_forEach (fun n t => moves_qualify t n) _).trans
    (moves_forEach (fun n t => moves_releaseIfDue t n) _)).trans
    (moves_forEach (fun i t => moves_delayOut t i) _)).trans (moves_forEach (fun i t => moves_widthOut t i) _)

theorem moves_finishTick (s : State) : Moves more s s.finishTick :=
  ((((moves_missExpiry s).trans (moves_finishCapture _)).trans (moves_fireHeads _ _)).trans
    (moves_commitReached _)).trans (moves_forEach (fun g t => moves_ageRunsOut t g) _)

theorem moves_takeClaims (n : Nat) (s : State) : Moves more s (State.takeClaims n s) := by
  induction n generalizing s with
  | zero => exact Moves.refl
  | succ n ih => exact (ih s.takeClaim).head (Move.pool PoolMove.claim)

theorem moves_completeTick (s : State) : Moves more s s.completeTick :=
  (moves_finishTick s).trans (moves_takeClaims _ _)

theorem moves_takeEventClaims (n : Nat) (s : State) : Moves more s (State.takeEventClaims n s) := by
  induction n generalizing s with
  | zero => exact Moves.refl
  | succ n ih =>
    unfold State.takeEventClaims
    split
    · exact (ih s.takeClaim).head (Move.pool PoolMove.claim)
    · exact Moves.refl

theorem moves_settled (s : State) : Moves more s s.settled := moves_takeEventClaims _ s

end Happenings

end Sys2Proof.Machine
end

section
/-!
PROOFS. The commands as moves: every accepted host write is a run of moves, or a START; TICK is the
completion of the tick before and the tick itself; and every invariant is kept by every step that its moves
keep it in (`step_keeps`).
-/
namespace Sys2Proof.Machine

/-! ### Accepted host writes -/

/-- The state after an accepted START (R4, R8). -/
def State.started (s : State) (a b c : Bool) : State :=
  (s.setTb { s.tb with
    state := .free, missCount := 0, badCount := 0, missReached := false, badReached := false
    syncLevel := none }).withSwitches a b c

/-- Accepted by a part that is not held in reset, the operation is a run of moves or a START. -/
def OpActs (op : State → Except RefCode State) : Prop :=
  ∀ s t, s.inReset = false → op s = .ok t →
    Moves True s t ∨ s.tb.state = .stopped ∧ ∃ a b c, t = s.started a b c

/-- An operation that is a run of moves wherever it is accepted. -/
theorem OpActs.of_moves {op : State → Except RefCode State} (h : ∀ s t, op s = .ok t → Moves True s t) :
    OpActs op := fun s t _ hop => Or.inl (h s t hop)

/-- An operation that is accepted everywhere. -/
theorem OpActs.of_ok {f : State → State} (h : ∀ s, Moves True s (f s)) : OpActs fun s => .ok (f s) :=
  .of_moves fun s t hop => by cases hop; exact h s

theorem OpActs.error (c : RefCode) : OpActs fun _ => .error c := .of_moves fun _ _ h => by cases h

theorem OpActs.nothing : OpActs .ok := .of_ok fun _ => Moves.refl

/-! #### Timebase -/

theorem startOp_acts (a b c : Bool) : OpActs (startOp a b c) := by
  intro s t _ h
  unfold startOp at h
  split at h
  · next hs => cases h; exact Or.inr ⟨hs, a, b, c, rfl⟩
  · cases h

theorem moves_withSwitches (s : State) (a b c : Bool) : Moves True s (s.withSwitches a b c) :=
  (Move.timebase (TimebaseMove.switches trivial a b c)).single

theorem stopOp_acts (a b c : Bool) : OpActs (stopOp a b c) := by
  refine .of_moves fun s t h => ?_
  unfold stopOp at h
  split at h
  · cases h
  · next hm =>
    obtain rfl := Except.ok.inj h
    have hmode : s.finishTick.mode = .config := by
      obtain ⟨_, _, _, _, _, _, _, _, _, e⟩ := finishTick_frame s
      obtain ⟨_, _, _, _, e'⟩ := timebaseOnly_missExpiry s
      rw [e, e']
      cases h : s.mode
      · rfl
      · exact absurd h hm
    exact ((moves_finishTick s).tail (Move.timebase (TimebaseMove.stop trivial hmode))).trans
      (moves_withSwitches _ a b c)

theorem presetOp_acts (a b c : Bool) : OpActs (presetOp a b c) := by
  refine .of_moves fun s t h => ?_
  unfold presetOp at h
  split at h
  · next hc =>
    cases h
    exact (moves_withSwitches _ a b c).head (Move.part (PartMove.preset trivial hc.1 hc.2.1))
  · cases h

theorem switchesOp_acts (a b c : Bool) : OpActs (switchesOp a b c) :=
  .of_ok fun s => (moves_missExpiry s).trans (moves_withSwitches _ a b c)

/-- A setting write is a move where the Timebase it makes has its settings in the ranges of R7. -/
theorem moves_settingOp {w : Bool} {t? : Option Timebase} {s t : State} (h : settingOp w t? s = .ok t)
    (ht : ∀ u, t? = some u → s.tb.Resets u) : Moves True s t := by
  unfold settingOp at h
  split at h
  · cases h
  · split at h
    · cases h
    · cases h
      exact (Move.timebase (TimebaseMove.settings trivial _ (ht _ rfl))).single

theorem tickDivOp_acts (w : Word) : OpActs (tickDivOp w) := by
  refine .of_moves fun s t h => moves_settingOp h fun u hu => ?_
  split at hu
  · cases hu
  · next hr =>
    cases hu
    refine ⟨⟨_, _, _, _, _, _, _, _, rfl⟩, fun _ => ?_, id, id, id⟩
    obtain ⟨hpos, hle⟩ := not_or.1 hr
    exact ⟨Nat.pos_of_ne_zero fun h0 => hpos (BitVec.eq_of_toNat_eq h0), Nat.not_lt.1 hle⟩

theorem syncPerOp_acts (i : Fin 2) (w : Word) : OpActs (syncPerOp i w) := by
  refine .of_moves fun s t h => moves_settingOp h fun u hu => ?_
  obtain ⟨hr, hu⟩ := Option.ite_none_left_eq_some.1 hu
  cases hu
  exact ⟨⟨_, _, _, _, _, _, _, _, rfl⟩, id, fun _ => (not_or.1 hr).2, id, id⟩

theorem syncTolOp_acts (w : Word) : OpActs (syncTolOp w) := by
  refine .of_moves fun s t h => moves_settingOp h fun u hu => ?_
  cases hu
  exact ⟨⟨_, _, _, _, _, _, _, _, rfl⟩, id, id, id, id⟩

theorem slewLimOp_acts (w : Word) : OpActs (slewLimOp w) := by
  refine .of_moves fun s t h => moves_settingOp h fun u hu => ?_
  split at hu
  · cases hu
  · cases hu; exact ⟨⟨_, _, _, _, _, _, _, _, rfl⟩, id, id, id, id⟩

theorem syncLimOp_acts (w : Word) : OpActs (syncLimOp w) := by
  refine .of_moves fun s t h => moves_settingOp h fun u hu => ?_
  split at hu
  · cases hu
  · next hr =>
    cases hu
    exact ⟨⟨_, _, _, _, _, _, _, _, rfl⟩, id, id, fun _ => (not_or.1 hr).1, fun _ => (not_or.1 hr).2⟩

theorem tbsetOp_acts (i : Fin 3) (w : Word) : OpActs (tbsetOp i w) :=
  .of_ok fun s => (Move.timebase (TimebaseMove.settings trivial
    { s.tb with tbset := setTimeWord s.tb.tbset i w }
    ⟨⟨_, _, _, _, _, _, _, _, rfl⟩, id, id, id, id⟩)).single

/-! #### Delivery Unit and window -/

theorem ackOp_acts (g : GroupNo) (w : Word) : OpActs (ackOp g w) := by
  refine .of_ok fun s => ?_
  unfold State.acknowledge
  split
  · next h => exact (Move.pool (PoolMove.free trivial g w h)).single
  · exact (Move.marks s.causes _ s.drawn fun _ => .inr trivial).single

theorem flushOp_acts (w : Word) : OpActs (flushOp w) := by
  refine .of_moves fun s t h => ?_
  unfold flushOp at h
  split at h
  · cases h; exact (Move.pool (PoolMove.flush trivial _)).single
  · cases h

theorem delenOp_acts (w : Word) : OpActs (delenOp w) :=
  .of_ok fun s => moves_forEach (fun g _ => (Move.pool (PoolMove.deliver trivial g _)).single) s

theorem girqenOp_acts (w : Word) : OpActs (girqenOp w) :=
  .of_ok fun _ => (Move.pool (PoolMove.irq trivial w)).single

theorem moves_window (s : State) (fz rd ws en rc ra ts ti td) : Moves True s { s with
    frzn := fz, readData := rd, wsel := ws, errEnable := en, refCode := rc, refAddr := ra, tsel := ts
    tidx := ti, tdata := td } := (Move.window trivial fz rd ws en rc ra ts ti td).single

theorem wselOp_acts (w : Word) : OpActs (wselOp w) := by
  refine .of_moves fun s t h => ?_
  unfold wselOp at h
  split at h
  · cases h; exact moves_window s _ _ _ _ _ _ _ _ _
  · cases h

theorem tselOp_acts (w : Word) : OpActs (tselOp w) := by
  refine .of_moves fun s t h => ?_
  unfold tselOp at h
  split at h
  case h_7 => cases h
  all_goals cases h; exact moves_window s _ _ _ _ _ _ _ _ _

theorem tidxOp_acts (w : Word) : OpActs (tidxOp w) := by
  refine .of_moves fun s t h => ?_
  unfold tidxOp at h
  split at h
  · cases h; exact moves_window s _ _ _ _ _ _ _ _ _
  · cases h

theorem tdataOp_acts (i : Fin 16) (w : Word) : OpActs (tdataOp i w) :=
  .of_ok fun s => moves_window s _ _ _ _ _ _ _ _ _

theorem errenOp_acts (w : Word) : OpActs (errenOp w) := .of_ok fun s => moves_window s _ _ _ _ _ _ _ _ _

theorem errflagOp_acts (w : Word) : OpActs (errflagOp w) :=
  .of_ok fun s => (Move.marks s.causes _ s.drawn fun _ => .inr trivial).single

/-! #### Output Stage -/

theorem hostClaim_acts (v : Bool) (half : Fin 2) (w : Word) : OpActs fun s => .ok (s.hostClaim v half w) :=
  .of_ok fun _ => (Move.output (OutputMove.claim trivial v half w)).single

theorem State.eventStamp_unsync {s : State} (h : s.tb.state = .stopped) : s.eventStamp.unsync = true := by
  rw [State.eventStamp_stopped h]

theorem freezeOp_acts : OpActs freezeOp :=
  .of_ok fun s => moves_addCause s _ _ _ State.eventStamp_unsync

theorem unfreezeOp_acts : OpActs unfreezeOp := by
  refine .of_moves fun s t h => ?_
  unfold unfreezeOp at h
  split at h
  · cases h
  · split at h
    · cases h
      exact (Move.marks {} s.errFlags s.drawn .inl).single.tail
        (Move.offer _ _ _ fun hs => State.eventStamp_unsync (s := s) hs)
    · cases h; exact Moves.refl

/-! #### Reflex Unit -/

theorem armOp_acts (i : SlotNo) : OpActs (armOp i) := by
  refine .of_moves fun s t h => ?_
  unfold armOp at h
  split at h
  · cases h
  · next hm =>
    split at h
    · next hx =>
      cases h
      refine (Move.reflex (ReflexMove.arm trivial i ?_ hx)).single
      cases hmode : s.mode
      · exact absurd hmode hm
      · rfl
    · cases h

theorem disarmOp_acts (i : SlotNo) : OpActs (disarmOp i) :=
  .of_ok fun _ => (Move.reflex (ReflexMove.disarm trivial i _)).single

theorem clearOp_acts (i : SlotNo) : OpActs (clearOp i) := by
  refine .of_moves fun s t h => ?_
  unfold clearOp at h
  split at h
  · next hx =>
    cases h
    exact (Move.reflex (ReflexMove.complete i _ _ _ (Or.inr hx) State.eventStamp_unsync)).single
  · cases h

/-! #### Schedule Unit -/

theorem stageOp_acts {op : State → Option StagedOp} (h : ∀ s o, op s = some o → o.inRange) :
    OpActs fun s => stageOp (op s) s := by
  refine .of_moves fun s t ht => ?_
  unfold stageOp at ht
  split at ht
  · cases ht
  · next hopen =>
    split at ht
    · cases ht
    · next hlen =>
      split at ht
      · cases ht
      · next o ho =>
        cases ht
        exact (Move.schedule (ScheduleMove.stage trivial o (not_not.1 hopen) (Nat.not_le.1 hlen)
          (h s o ho))).single

theorem cancelOp_acts : OpActs cancelOp := by
  refine stageOp_acts (op := fun s => if s.sched.sarg = 0 then none else some (.cancel s.sched.sarg))
    fun s o ho => ?_
  split at ho
  · cases ho
  · next h => cases ho; exact h

theorem clearAllOp_acts : OpActs clearAllOp :=
  stageOp_acts (op := fun _ => some .clearAll) fun _ _ ho => by cases ho; trivial

theorem discardOp_acts : OpActs discardOp := by
  refine .of_moves fun s t h => ?_
  unfold discardOp at h
  split at h
  · next ho => cases h; exact (Move.schedule (ScheduleMove.discard trivial ho)).single
  · cases h

theorem moves_startApplying {s : State} (h : s.sched.commit = .open_) : Moves True s s.startApplying :=
  (Move.schedule (ScheduleMove.start (by rw [h]; exact nofun))).single

theorem commitNowOp_acts : OpActs commitNowOp := by
  refine .of_moves fun s t h => ?_
  unfold commitNowOp at h
  split at h
  · next ho => cases h; exact moves_startApplying ho
  · cases h

theorem commitAtOp_acts : OpActs commitAtOp := by
  refine .of_moves fun s t h => ?_
  unfold commitAtOp at h
  split at h
  · next ho =>
    split at h
    · cases h; exact moves_startApplying ho
    · cases h; exact (Move.schedule (ScheduleMove.arm trivial ho)).single
  · cases h

theorem abortOp_acts : OpActs abortOp := by
  refine .of_moves fun s t h => ?_
  unfold abortOp at h
  split at h
  · next ha => cases h; exact (Move.schedule (ScheduleMove.abort trivial ha)).single
  · cases h

theorem catOp_acts (i : Fin 3) (w : Word) : OpActs (catOp i w) := by
  refine .of_moves fun s t h => ?_
  unfold catOp at h
  split at h
  · cases h; exact (Move.schedule (ScheduleMove.settings trivial _ s.sched.sarg)).single
  · cases h

theorem sargOp_acts (w : Word) : OpActs (sargOp w) :=
  .of_ok fun s => (Move.schedule (ScheduleMove.settings trivial s.sched.cat w)).single

/-! #### Mode and Error Control -/

theorem runOp_acts : OpActs runOp := by
  refine .of_moves fun s t h => ?_
  unfold runOp at h
  split at h
  · cases h
  · next hs =>
    split at h
    · cases h; exact Moves.refl
    · cases h; exact (Move.part (PartMove.run trivial hs)).single

theorem haltOp_acts : OpActs haltOp := by
  refine .of_moves fun s t h => ?_
  unfold haltOp at h
  split at h
  · cases h; exact Moves.refl
  · obtain rfl := Except.ok.inj h
    exact (moves_finishCapture s).tail (Move.part (PartMove.halt trivial))

theorem moves_pinAtResetEnd (s : State) : Moves True s s.pinAtResetEnd := by
  unfold State.pinAtResetEnd
  split
  · exact Moves.refl
  · exact moves_addCause s _ _ _ State.eventStamp_unsync

theorem softResetOp_acts : OpActs softResetOp :=
  .of_ok fun s => ((moves_finishTick s).tail (Move.part (PartMove.softReset trivial))).trans
    (moves_pinAtResetEnd _)

/-! #### Tables -/

theorem readOp_acts : OpActs readOp := by
  refine .of_moves fun s t h => ?_
  unfold readOp at h
  split at h
  · cases h
  · cases h; exact moves_window s _ _ _ _ _ _ _ _ _

/-- The line fields taken from the buffer hold the mode field of the buffer. -/
theorem lineFields_on {b : Buffer} {c : LineConfig} (h : lineFields b = some c) : c.on = lineOn b := by
  simp only [lineFields, Option.bind_eq_bind, Option.bind_eq_some_iff, pure, Option.some.injEq] at h
  obtain ⟨_, _, _, _, _, _, rfl⟩ := h
  rfl

theorem writeLineOp_moves {n : LineNo} {s t : State}
    (h : writeLineOp n (lineOn s.tdata) (lineFields s.tdata) s = .ok t) : Moves True s t := by
  unfold writeLineOp at h
  simp only at h
  split at h
  · cases h
  · split at h
    · cases h
    · next c hc =>
      cases h
      refine (Move.input (InputMove.write trivial n _ ?_)).single
      have hon := lineFields_on hc
      split
      · next hoff => exact LineWrite.off c (hon.trans (by simpa using hoff))
      · next hoff =>
        have hon' : c.on = true := hon.trans (by simpa using hoff)
        split
        · next hm => exact LineWrite.live c hon' hm
        · next hm =>
          refine LineWrite.idle c hon' ?_
          cases hmode : s.mode
          · rfl
          · exact absurd hmode hm

theorem writeSlotOp_moves {i : SlotNo} {c : Option SlotConfig} {s t : State}
    (h : writeSlotOp i c s = .ok t) : Moves True s t := by
  unfold writeSlotOp at h
  split at h
  · next hx =>
    split at h
    · cases h
    · cases h; exact (Move.reflex (ReflexMove.configure trivial i _ hx)).single
  · cases h

theorem writeQuotaOp_moves {g : GroupNo} {q : Option Quota} {s t : State}
    (h : writeQuotaOp g q s = .ok t) : Moves True s t := by
  unfold writeQuotaOp at h
  split at h
  · cases h
  · split at h
    · cases h
    · simp only at h
      split at h
      · cases h
      · next hb => cases h; exact (Move.pool (PoolMove.quota trivial g _ (Bool.eq_false_iff.2 hb))).single

theorem writeOp_acts : OpActs writeOp := by
  refine .of_moves fun s t h => ?_
  unfold writeOp at h
  split at h
  · split at h
    · cases h
    · exact writeLineOp_moves h
  · split at h
    · cases h
    · exact writeSlotOp_moves h
  · split at h
    · cases h
    · split at h
      · cases h
      · cases h; exact (Move.output (OutputMove.write trivial _ _)).single
  · split at h
    · cases h
    · exact writeQuotaOp_moves h
  · cases h
  · cases h

theorem repOf_period {b : Bool} {p : BitVec 32} {n : Word} {r : Option Rep} (h : repOf b p n = some r) :
    ∀ x, r = some x → x.period ≠ 0 := by
  unfold repOf at h
  split at h
  · cases h; exact nofun
  · split at h
    · cases h
    · next hp => cases h; intro x hx; cases hx; exact hp

/-- An entry taken from the buffer has its fields in their ranges (R151, R198). -/
theorem entryFields_inRange {b : Buffer} {e : Entry} (h : entryFields b = some e) : e.inRange := by
  simp only [entryFields, Option.bind_eq_bind, Option.bind_eq_some_iff] at h
  obtain ⟨_, _, rep, hrep, _, _, h⟩ := h
  split at h
  · cases h
  · next hr => cases h; exact ⟨(not_or.1 hr).1, (not_or.1 hr).2, repOf_period hrep⟩

theorem appendOp_acts : OpActs appendOp := by
  intro s t hreset h
  unfold appendOp at h
  split at h
  · refine stageOp_acts (op := fun s => (entryFields s.tdata).map .insert) (fun s o ho => ?_) s t hreset h
    obtain ⟨e, he, rfl⟩ := Option.map_eq_some_iff.1 ho
    exact entryFields_inRange he
  all_goals cases h

/-! #### Registers -/

theorem modeOp_acts (w : Word) : OpActs (modeOp w) := by
  unfold modeOp
  split
  · exact .nothing
  · exact runOp_acts
  · exact haltOp_acts
  · exact .error _

theorem softrstOp_acts (w : Word) : OpActs (softrstOp w) := by
  unfold softrstOp
  split
  · exact .nothing
  · split
    · exact softResetOp_acts
    · exact .error _

theorem tbctlOp_acts (w : Word) : OpActs (tbctlOp w) := by
  unfold tbctlOp
  split
  · exact startOp_acts _ _ _
  · exact stopOp_acts _ _ _
  · exact presetOp_acts _ _ _
  · exact switchesOp_acts _ _ _

theorem frzctlOp_acts (w : Word) : OpActs (frzctlOp w) := by
  unfold frzctlOp
  split
  · exact .nothing
  · exact freezeOp_acts
  · exact unfreezeOp_acts
  · exact .error _

theorem rfxcmdOp_acts (w : Word) : OpActs (rfxcmdOp w) := by
  unfold rfxcmdOp
  split
  · exact armOp_acts _
  · exact disarmOp_acts _
  · exact clearOp_acts _
  · exact .error _

theorem scmdOp_acts (w : Word) : OpActs (scmdOp w) := by
  unfold scmdOp
  split
  · exact cancelOp_acts
  · exact clearAllOp_acts
  · exact discardOp_acts
  · exact commitNowOp_acts
  · exact commitAtOp_acts
  · exact abortOp_acts
  · exact .error _

theorem tcmdOp_acts (w : Word) : OpActs (tcmdOp w) := by
  unfold tcmdOp
  split
  · exact readOp_acts
  · exact writeOp_acts
  · exact appendOp_acts
  · exact .error _

/-- The write of every register is a run of moves, or a START. -/
theorem registerOp_acts (r : Register) (w : Word) : OpActs (registerOp r w) := by
  cases r with
  | mode => exact modeOp_acts w
  | softrst => exact softrstOp_acts w
  | errflag => exact errflagOp_acts w
  | erren => exact errenOp_acts w
  | wsel => exact wselOp_acts w
  | ack g => exact ackOp_acts g w
  | gflush => exact flushOp_acts w
  | delen => exact delenOp_acts w
  | girqen => exact girqenOp_acts w
  | tbctl => exact tbctlOp_acts w
  | tickdiv => exact tickDivOp_acts w
  | syncper i => exact syncPerOp_acts i w
  | synctol => exact syncTolOp_acts w
  | slewlim => exact slewLimOp_acts w
  | synclim => exact syncLimOp_acts w
  | tbset i => exact tbsetOp_acts i w
  | hostset i => exact hostClaim_acts true i w
  | hostclr i => exact hostClaim_acts false i w
  | frzctl => exact frzctlOp_acts w
  | rfxcmd => exact rfxcmdOp_acts w
  | scmd => exact scmdOp_acts w
  | sarg => exact sargOp_acts w
  | cat i => exact catOp_acts i w
  | tsel => exact tselOp_acts w
  | tidx => exact tidxOp_acts w
  | tcmd => exact tcmdOp_acts w
  | tdata i => exact tdataOp_acts i w
  | _ => exact .error _

theorem addressOp_acts (a : Addr) (w : Word) : OpActs (addressOp a w) := by
  unfold addressOp
  split
  · exact .error _
  · exact registerOp_acts _ w

/-! ### Every command -/

/-- All that a command can make of a state: a run of moves, moves and a START at their end, or a tick on the
completed tick before it. -/
inductive Acts (s : State) : State → Prop
  | moves {t} (h : Moves True s t) : Acts s t
  | start {u} (h : Moves True s u) (hr : u.inReset = false) (hs : u.tb.state = .stopped) (a b c) :
      Acts s (u.started a b c)
  | tick (samples sync first) (hs : s.tb.state ≠ .stopped) :
      Acts s (s.completeTick.makeTick samples sync first)

theorem hostWrite_acts {op : State → Except RefCode State} (hop : OpActs op) (a : Addr) (s : State) :
    ∃ t, hostWrite a op s = .next t ∧ Acts s t := by
  rcases hostWrite_cases a op s with ⟨-, e⟩ | ⟨hr, t, ht, e⟩ | ⟨-, c, -, e⟩
  · exact ⟨s, e, .moves Moves.refl⟩
  · have hr' : s.settled.inReset = false := by rw [State.settled_inReset, hr]
    rcases hop s.settled t hr' ht with h | ⟨hs, x, y, z, rfl⟩
    · exact ⟨t, e, .moves ((moves_settled s).trans h)⟩
    · exact ⟨_, e, .start (moves_settled s) hr' hs x y z⟩
  · exact ⟨_, e, .moves (((moves_settled s).tail
      (Move.marks s.settled.causes (s.settled.errFlags ||| ErrFlag.refused.bit) s.settled.drawn
        fun _ => .inr trivial)).trans
        (moves_window _ _ _ _ _ _ _ _ _ _))⟩

theorem moves_frznFalls (s : State) : Moves True s s.frznFalls := by
  unfold State.frznFalls
  have hlevel : Moves True s { s with frzn := false } := moves_window s _ _ _ _ _ _ _ _ _
  split
  · split
    · exact hlevel
    · exact hlevel.trans (moves_addCause _ _ _ _ fun hs => State.eventStamp_unsync (s := s) hs)
  · exact Moves.refl

theorem moves_slewAdjust (s : State) : Moves True s s.slewAdjust :=
  moves_whenTickDue fun hrun _ => (Move.timebase (TimebaseMove.adjust trivial hrun)).single

theorem moves_applyInsert {s : State} {e : Entry} (h : s.nextOp = some (.insert e)) :
    Moves True s (s.countOp (s.applyInsert e)) := by
  have refuses (why : OpRefusal) : Moves True s (s.countOp (.error why)) :=
    (Move.schedule (ScheduleMove.refuse trivial _ why h)).single
  unfold State.applyInsert
  split
  · exact refuses _
  · next hl =>
    split
    · split
      · exact refuses _
      · exact (Move.schedule (ScheduleMove.late trivial e h (Nat.not_le.1 hl))).single
    · next hr =>
      split
      · exact refuses _
      · exact (Move.schedule
          (ScheduleMove.insert trivial e h (Nat.not_le.1 hl) (Bool.eq_false_iff.2 hr))).single

theorem moves_insertNext (s : State) : Moves True s s.insertNext := by
  unfold State.insertNext
  split
  · next e h => exact moves_applyInsert h
  · exact Moves.refl

theorem moves_cancelNext (s : State) : Moves True s s.cancelNext := by
  unfold State.cancelNext
  split
  · next tag h =>
    unfold State.applyCancel
    split
    · exact (Move.schedule (ScheduleMove.remove trivial _ _ h List.filter_sublist)).single
    · exact (Move.schedule (ScheduleMove.refuse trivial _ _ h)).single
  · exact Moves.refl

theorem moves_clearAllNext (s : State) : Moves True s s.clearAllNext := by
  unfold State.clearAllNext
  split
  · next h => exact (Move.schedule (ScheduleMove.remove trivial _ [] h (List.nil_sublist _))).single
  · exact Moves.refl

theorem moves_finishDue (s : State) : Moves True s (s.whenDue s.finishDue State.finishCommit) := by
  rcases s.whenDue_cases s.finishDue State.finishCommit with ⟨-, e⟩ | ⟨-, e⟩
  · rw [e]; exact (Move.schedule (ScheduleMove.finish trivial)).single
  · rw [e]

theorem moves_deviceReset (s : State) (resetn : Bool) : Moves True s (s.deviceReset resetn) := by
  unfold State.deviceReset
  split
  · exact (Move.part (PartMove.deviceReset trivial true)).single
  · split
    · exact (Move.part (PartMove.deviceReset trivial false)).single.trans (moves_pinAtResetEnd _)
    · exact Moves.refl

theorem execTimeRead_acts (s : State) : ∃ t, execTimeRead s = .next t ∧ Acts s t := by
  refine ⟨_, rfl, ?_⟩
  split
  · exact .moves (moves_window s _ _ _ _ _ _ _ _ _)
  · exact .moves (((moves_settled s).tail (Move.timebase (TimebaseMove.settings trivial
      { s.settled.tb with latch := s.settled.tb.counter } ⟨⟨_, _, _, _, _, _, _, _, rfl⟩, id, id, id, id⟩))).trans
        (moves_window _ _ _ _ _ _ _ _ _ _))

/-- Every command completes, and makes of the state no more than moves, a START or a tick. -/
theorem exec_acts (c : Instr) (s : State) : ∃ t, exec c s = .next t ∧ Acts s t := by
  have moved {t : State} (h : Moves True s t) :
      ∃ t', (Host.Outcome.next t : Host.Outcome State Fault Refusal) = .next t' ∧ Acts s t' :=
    ⟨t, rfl, .moves h⟩
  cases c with
  | tick samples sync first =>
    refine ⟨_, rfl, ?_⟩
    split
    · exact .moves Moves.refl
    · next hs => exact .tick samples sync first hs
  | slewAdjustment => exact moved (moves_slewAdjust s)
  | missTimerExpiry => exact moved (moves_missExpiry s)
  | start a b c => exact hostWrite_acts (startOp_acts a b c) 0x30 s
  | stop a b c => exact hostWrite_acts (stopOp_acts a b c) 0x30 s
  | preset a b c => exact hostWrite_acts (presetOp_acts a b c) 0x30 s
  | switches a b c => exact hostWrite_acts (switchesOp_acts a b c) 0x30 s
  | timeRead => exact execTimeRead_acts s
  | qualification n => exact moved (moves_qualify s n)
  | release n => exact moved (moves_releaseIfDue s n)
  | delayRunsOut i => exact moved (moves_delayOut s i)
  | widthRunsOut i => exact moved (moves_widthOut s i)
  | arm i => exact hostWrite_acts (armOp_acts i) 0x58 s
  | disarm i => exact hostWrite_acts (disarmOp_acts i) 0x58 s
  | clear i => exact hostWrite_acts (clearOp_acts i) 0x58 s
  | firing => exact moved (moves_fireHead s)
  | cancel => exact hostWrite_acts cancelOp_acts 0x60 s
  | clearAll => exact hostWrite_acts clearAllOp_acts 0x60 s
  | discard => exact hostWrite_acts discardOp_acts 0x60 s
  | commitNow => exact hostWrite_acts commitNowOp_acts 0x60 s
  | commitAt => exact hostWrite_acts commitAtOp_acts 0x60 s
  | abort => exact hostWrite_acts abortOp_acts 0x60 s
  | commitTimeReached => exact moved (moves_commitReached s)
  | insert => exact moved (moves_insertNext s)
  | cancelOperation => exact moved (moves_cancelNext s)
  | clearAllOperation => exact moved (moves_clearAllNext s)
  | applicationFinish => exact moved (moves_finishDue s)
  | claim => exact moved (Move.pool PoolMove.claim).single
  | acknowledge g w => exact hostWrite_acts (ackOp_acts g w) (BitVec.ofNat 8 (0x10 + g)) s
  | flush w => exact hostWrite_acts (flushOp_acts w) 0x19 s
  | delenWrite w => exact hostWrite_acts (delenOp_acts w) 0x1A s
  | ageTimerRunsOut g => exact moved (moves_ageRunsOut s g)
  | hostset half w => exact hostWrite_acts (hostClaim_acts true half w) (BitVec.ofNat 8 (0x4C + half)) s
  | hostclr half w => exact hostWrite_acts (hostClaim_acts false half w) (BitVec.ofNat 8 (0x4E + half)) s
  | frznFall => exact moved (moves_frznFalls s)
  | frznRise => exact moved (moves_window s _ _ _ _ _ _ _ _ _)
  | freeze => exact hostWrite_acts freezeOp_acts 0x50 s
  | unfreeze => exact hostWrite_acts unfreezeOp_acts 0x50 s
  | read => exact hostWrite_acts readOp_acts 0x72 s
  | write => exact hostWrite_acts writeOp_acts 0x72 s
  | append => exact hostWrite_acts appendOp_acts 0x72 s
  | run => exact hostWrite_acts runOp_acts 0x01 s
  | halt => exact hostWrite_acts haltOp_acts 0x01 s
  | softReset => exact hostWrite_acts softResetOp_acts 0x02 s
  | deviceReset resetn => exact moved (moves_deviceReset s resetn)
  | errflagClear w => exact hostWrite_acts (errflagOp_acts w) 0x03 s
  | registerWrite a w => exact hostWrite_acts (addressOp_acts a w) a s

/-- What a command answers is one of its acts. -/
theorem acts_of_exec {c : Instr} {s t : State} (h : exec c s = .next t) : Acts s t := by
  obtain ⟨u, hu, hacts⟩ := exec_acts c s
  rw [h] at hu
  cases hu
  exact hacts

/-- A rule that every move, every START and every tick keeps, and that does not rest on the waiting commands,
is kept by every step. -/
theorem step_keeps {P : State → Prop} (hqueue : ∀ s cs, P s → P { s with pending := cs })
    (hmove : ∀ s t, Move True s t → P s → P t)
    (hstart : ∀ s a b c, s.inReset = false → s.tb.state = .stopped → P s → P (s.started a b c))
    (htick : ∀ s samples sync first, s.tb.state ≠ .stopped → P s → P s.completeTick →
      P (s.completeTick.makeTick samples sync first))
    {s t : State} (hs : P s) (h : step s = .next t) : P t := by
  unfold step at h
  split at h
  · cases h; exact hs
  · next c rest _ =>
    have hs' := hqueue s rest hs
    cases acts_of_exec h with
    | moves hm => exact hm.keeps hmove hs'
    | start hm hr hst a b c => exact hstart _ a b c hr hst (hm.keeps hmove hs')
    | tick samples sync first hrun =>
      exact htick _ samples sync first hrun hs' ((moves_completeTick _).keeps hmove hs')

end Sys2Proof.Machine
end

section
/-!
PROOFS. What each unit's move can change, and the statements of the queue of commands: a step takes the
front command, and every command completes and keeps the waiting ones.
-/
namespace Sys2Proof.Machine

/-! ### The frame of a move -/

section Frames
variable {more : Prop} {s t : State} {P : State → Prop}

/-- A move of the pool writes the claims, the queues, the groups and the error flags at most. -/
theorem PoolMove.keeps (h : PoolMove more s t)
    (hP : ∀ cl qs gs fl, P { s with claims := cl, queues := qs, groups := gs, errFlags := fl }) : P t := by
  cases h with
  | claim => obtain ⟨cl, qs, gs, fl, e⟩ := s.takeClaim_frame; rw [e]; exact hP cl qs gs fl
  | age g => exact hP s.claims s.queues _ s.errFlags
  | free _ g _ _ => obtain ⟨qs, gs, e⟩ := s.freePresented_frame g; rw [e]; exact hP s.claims qs gs s.errFlags
  | flush _ g => obtain ⟨qs, gs, e⟩ := s.flushGroup_frame g; rw [e]; exact hP s.claims qs gs s.errFlags
  | deliver _ g b => obtain ⟨qs, gs, e⟩ := s.setDeliver_frame g b; rw [e]; exact hP s.claims qs gs s.errFlags
  | irq _ w => exact hP s.claims s.queues _ s.errFlags
  | quota _ g q _ => exact hP s.claims _ s.groups s.errFlags

theorem ReflexOnly.keeps (h : ReflexOnly s t)
    (hP : ∀ xs os cl fl, P { s with slots := xs, outputs := os, claims := cl, errFlags := fl }) : P t := by
  obtain ⟨xs, os, cl, fl, rfl⟩ := h
  exact hP xs os cl fl

/-- A move of the Reflex Unit writes the slots, the output lines, the claims and the error flags at most. -/
theorem ReflexMove.only (h : ReflexMove more s t) : ReflexOnly s t := by
  cases h with
  | trigger i v _ => exact reflexOnly_triggerSlot s i v
  | assert i _ _ => exact reflexOnly_assertSlot s i
  | complete i c b st _ _ => exact reflexOnly_completePulse s i c b st
  | disarm _ i c => exact reflexOnly_disarmSlot s i c
  | arm _ i _ _ => exact reflexOnly_setSlot s i _
  | configure _ i _ _ => exact reflexOnly_setSlot s i _

theorem ReflexMove.keeps (h : ReflexMove more s t)
    (hP : ∀ xs os cl fl, P { s with slots := xs, outputs := os, claims := cl, errFlags := fl }) : P t :=
  h.only.keeps hP

theorem ScheduleOnly.keeps (h : ScheduleOnly s t)
    (hP : ∀ os sc cl fl, P { s with outputs := os, sched := sc, claims := cl, errFlags := fl }) : P t := by
  obtain ⟨os, sc, cl, fl, rfl⟩ := h
  exact hP os sc cl fl

theorem scheduleOnly_fireLate (s : State) (e : Entry) : ScheduleOnly s (s.fireLate e) :=
  (scheduleOnly_setSched s _).trans (scheduleOnly_fireEntry _ _ _ _ _)

/-- A move of the Schedule Unit writes the output lines, the Schedule Unit, the claims and the error flags at
most. -/
theorem ScheduleMove.only (h : ScheduleMove more s t) : ScheduleOnly s t := by
  cases h with
  | fire a rest _ _ => exact (scheduleOnly_setSched s _).trans (scheduleOnly_fireEntry _ _ _ _ _)
  | start _ => exact scheduleOnly_startApplying s
  | finish _ => exact scheduleOnly_finishCommit s
  | late _ e _ _ => exact (scheduleOnly_fireLate s e).trans (scheduleOnly_setSched _ _)
  | insert _ e _ _ _ => exact (scheduleOnly_setSched s _).trans (scheduleOnly_setSched _ _)
  | remove _ _ keep _ _ => exact (scheduleOnly_setSched s _).trans (scheduleOnly_setSched _ _)
  | _ => exact scheduleOnly_setSched s _

theorem ScheduleMove.keeps (h : ScheduleMove more s t)
    (hP : ∀ os sc cl fl, P { s with outputs := os, sched := sc, claims := cl, errFlags := fl }) : P t :=
  h.only.keeps hP

/-- A move of the Timebase writes the Timebase. -/
theorem TimebaseMove.keeps (h : TimebaseMove more s t) (hP : ∀ tb, P { s with tb := tb }) : P t := by
  cases h <;> exact hP _

/-- A move of the Input Unit writes the lines. -/
theorem InputMove.keeps (h : InputMove more s t) (hP : ∀ ls, P { s with lines := ls }) : P t := by
  cases h <;> exact hP _

/-- A move of the Output Stage writes the output lines and the error flags at most. -/
theorem OutputMove.keeps (h : OutputMove more s t) (hP : ∀ os fl, P { s with outputs := os, errFlags := fl }) :
    P t := by
  cases h with
  | claim _ v half w => obtain ⟨os, fl, e⟩ := s.hostClaim_frame v half w; rw [e]; exact hP os fl
  | write _ n e => exact hP _ s.errFlags

theorem reflexOnly_halt (s : State) :
    ReflexOnly { s with mode := .config, lines := s.lines.map Line.onHalt } s.halt :=
  forEach_keeps (P := ReflexOnly _) (fun i _ ht => ht.trans (reflexOnly_disarmSlot _ i _)) (ReflexOnly.refl _)

end Frames

/-! ### The waiting commands -/

theorem Move.pending {more : Prop} {s t : State} (h : Move more s t) : t.pending = s.pending := by
  cases h with
  | pool h => exact h.keeps (P := fun t => t.pending = s.pending) fun _ _ _ _ => rfl
  | reflex h => exact h.keeps (P := fun t => t.pending = s.pending) fun _ _ _ _ => rfl
  | schedule h => exact h.keeps (P := fun t => t.pending = s.pending) fun _ _ _ _ => rfl
  | timebase h => exact h.keeps (P := fun t => t.pending = s.pending) fun _ => rfl
  | input h => exact h.keeps (P := fun t => t.pending = s.pending) fun _ => rfl
  | output h => exact h.keeps (P := fun t => t.pending = s.pending) fun _ _ => rfl
  | part h =>
    cases h with
    | halt _ => exact (reflexOnly_halt s).keeps (P := fun t => t.pending = s.pending) fun _ _ _ _ => rfl
    | _ => rfl
  | offer => rfl
  | marks => rfl
  | window => rfl

theorem Moves.pending {more : Prop} {s t : State} (h : Moves more s t) : t.pending = s.pending :=
  h.keeps (P := fun t => t.pending = s.pending) (fun _ _ hm hs => hm.pending.trans hs) rfl

theorem makeTick_pending (s : State) (samples : BitVec 64) (sync first : Bool) :
    (s.makeTick samples sync first).pending = s.pending := by
  unfold State.makeTick
  simp only
  obtain ⟨_, _, _, _, _, _, _, _, _, h⟩ := blockTick_frame
    (s.slewAdjust.timebaseEffect (s.slewAdjust.tb.tick sync first).effect) samples
    (s.slewAdjust.tb.tick sync first).step (s.slewAdjust.tb.tick sync first).before
  obtain ⟨_, _, _, k⟩ := s.slewAdjust.timebaseEffect_frame (s.slewAdjust.tb.tick sync first).effect
  obtain ⟨_, _, _, _, e⟩ := timebaseOnly_slewAdjust s
  rw [h, k, e]

theorem Acts.pending {s t : State} (h : Acts s t) : t.pending = s.pending := by
  cases h with
  | moves h => exact h.pending
  | start h _ _ a b c => exact h.pending
  | tick samples sync first _ => exact (makeTick_pending _ _ _ _).trans (moves_completeTick (more := True) s).pending

/-- Settles O2: every command's acts are known, and each keeps the queue. -/
theorem everyCommandCompletesAndKeepsTheQueue : Obligations.EveryCommandCompletesAndKeepsTheQueue := by
  intro c s
  obtain ⟨t, ht, hacts⟩ := exec_acts c s
  exact ⟨t, ht, hacts.pending⟩

/-- Settles O1: by the definition of `step` at a queue with a front and at an empty one. -/
theorem stepRunsTheFrontCommand : Obligations.StepRunsTheFrontCommand := by
  refine ⟨fun c rest s => rfl, fun s h => ?_⟩
  unfold step
  rw [h]

end Sys2Proof.Machine
end

section
/-!
PROOFS. The Timebase stays sound (R5, R7, R13, R17): its commands, the expiry of the miss timer, the pulses
and the ticks.
-/
namespace Sys2Proof.Machine

/-! ### The phase error (R11) -/

/-- The phase error lies above -P/2 and at most at P/2, and V less it is a multiple of P. -/
theorem phaseError_range (v : Time) {p : Nat} (hp : 0 < p) :
    2 * phaseError v p ≤ p ∧ -(p : Int) < 2 * phaseError v p ∧ (p : Int) ∣ (v.toNat : Int) - phaseError v p := by
  have hmod := Nat.mod_lt v.toNat hp
  have hdiv : (p : Int) ∣ (v.toNat : Int) - ((v.toNat % p : Nat) : Int) := by
    rw [Int.natCast_mod]
    exact Int.dvd_self_sub_emod
  unfold phaseError
  simp only
  split
  · exact ⟨by omega, by omega, hdiv⟩
  · refine ⟨by omega, by omega, ?_⟩
    have h := Int.dvd_add hdiv (Int.dvd_refl (p : Int))
    rwa [show (v.toNat : Int) - ((v.toNat % p : Nat) : Int) + p
      = (v.toNat : Int) - (((v.toNat % p : Nat) : Int) - p) by omega] at h

/-! ### The transitions -/

/-- The rules of `TimebaseSafe` on the settings. -/
structure SettingsSafe (t : Timebase) : Prop where
  tickDiv_range : 1 ≤ t.tickDiv.toNat ∧ t.tickDiv.toNat ≤ 4096
  period_pos : t.period ≠ 0
  missLimit_pos : t.missLimit ≠ 0
  badLimit_pos : t.badLimit ≠ 0

/-- The rules of `TimebaseSafe` on what runs. -/
structure RunningSafe (t : Timebase) : Prop where
  missTimer_iff_locked : t.missTimer.isSome = true ↔ t.state = .locked
  stopped_no_slew : t.state = .stopped → t.slew = none ∧ t.advance = .normal
  slew_pos : ∀ x, t.slew = some x → 1 ≤ x.left ∧ 1 ≤ x.spacing

theorem timebaseSafe_iff (t : Timebase) : TimebaseSafe t ↔ SettingsSafe t ∧ RunningSafe t :=
  ⟨fun ⟨a, b, c, d, e, f, g⟩ => ⟨⟨a, b, c, d⟩, ⟨e, f, g⟩⟩, fun ⟨⟨a, b, c, d⟩, ⟨e, f, g⟩⟩ => ⟨a, b, c, d, e, f, g⟩⟩

/-- The settings of a Timebase, which its ticks leave (R7, R8). -/
def Timebase.settings (t : Timebase) :=
  (t.tickDiv, t.period, t.tolerance, t.slewLimit, t.missLimit, t.badLimit, t.syncEnable, t.stepAllow,
    t.freezeOnHoldover, t.latch, t.tbset)

theorem SettingsSafe.of_eq {t u : Timebase} (h : SettingsSafe t) (e : u.settings = t.settings) :
    SettingsSafe u := by
  simp only [Timebase.settings, Prod.mk.injEq] at e
  obtain ⟨e1, e2, -, -, e3, e4, -⟩ := e
  exact ⟨e1 ▸ h.1, e2 ▸ h.2, e3 ▸ h.3, e4 ▸ h.4⟩

theorem Timebase.expire_settings (t : Timebase) : t.expire.tb.settings = t.settings := by
  unfold Timebase.expire
  split <;> rfl

theorem Timebase.expireFirst_settings (t : Timebase) (b : Bool) :
    (t.expireFirst b).tb.settings = t.settings := by
  unfold Timebase.expireFirst
  split
  · exact t.expire_settings
  · rfl

theorem Timebase.lockOn_settings (t : Timebase) (e : Int) : (t.lockOn e).tb.settings = t.settings := by
  unfold Timebase.lockOn
  split <;> rfl

theorem Timebase.badPulse_settings (t : Timebase) (e : Int) : (t.badPulse e).tb.settings = t.settings := by
  unfold Timebase.badPulse
  split
  · split <;> rfl
  · rfl

theorem Timebase.pulse_settings (t : Timebase) : t.pulse.effect.tb.settings = t.settings := by
  unfold Timebase.pulse
  simp only
  split
  · exact Timebase.lockOn_settings _ _
  · split
    · exact Timebase.lockOn_settings _ _
    · exact Timebase.badPulse_settings _ _

theorem Timebase.tick_settings (t : Timebase) (sync first : Bool) :
    (t.tick sync first).effect.tb.settings = t.settings := by
  unfold Timebase.tick
  simp only
  split
  · exact (Timebase.pulse_settings _).trans (Timebase.expireFirst_settings _ _)
  · rfl

theorem Timebase.adjust_settings (t : Timebase) : t.adjust.settings = t.settings := by
  unfold Timebase.adjust
  split <;> rfl

theorem RunningSafe.expire {t : Timebase} (h : RunningSafe t) (hd : t.expiryDue = true) :
    RunningSafe t.expire.tb := by
  have hl := Timebase.state_of_expiryDue hd
  unfold Timebase.expire
  split
  · exact ⟨by simp, nofun, h.slew_pos⟩
  · exact ⟨by simp [hl], fun hs => absurd (hl.symm.trans hs) nofun, h.slew_pos⟩

/-- An expiry taken first leaves the Timebase sound and running. -/
theorem RunningSafe.expireFirst {t : Timebase} (h : RunningSafe t) (b : Bool) :
    RunningSafe (t.expireFirst b).tb := by
  unfold Timebase.expireFirst
  split
  · next hb => exact h.expire (Bool.and_eq_true_iff.1 hb).2
  · exact h

theorem Timebase.expireFirst_state_ne_stopped {t : Timebase} (h : t.state ≠ .stopped) (b : Bool) :
    (t.expireFirst b).tb.state ≠ .stopped := by
  unfold Timebase.expireFirst
  split
  · exact Timebase.expire_state_ne_stopped h
  · exact h

theorem Timebase.lockOn_state (t : Timebase) (e : Int) : (t.lockOn e).tb.state = .locked := by
  unfold Timebase.lockOn
  split
  · next h => exact h
  · rfl

theorem Timebase.lockOn_missTimer (t : Timebase) (e : Int) : (t.lockOn e).tb.missTimer = t.pulseTimer := by
  unfold Timebase.lockOn
  split <;> rfl

theorem Timebase.lockOn_slew (t : Timebase) (e : Int) : (t.lockOn e).tb.slew = t.slew := by
  unfold Timebase.lockOn
  split <;> rfl

/-- A Timebase that a pulse locks is sound where the slew it pends is. -/
theorem RunningSafe.lockOn {t : Timebase} (h : ∀ x, t.slew = some x → 1 ≤ x.left ∧ 1 ≤ x.spacing) (e : Int) :
    RunningSafe (t.lockOn e).tb := by
  refine ⟨?_, fun hs => ?_, ?_⟩
  · rw [Timebase.lockOn_state, Timebase.lockOn_missTimer]
    simp [Timebase.pulseTimer]
  · rw [Timebase.lockOn_state] at hs
    cases hs
  · rw [Timebase.lockOn_slew]
    exact h

/-- The adjustments of a slewed pulse are one or more, and one or more ticks apart: the error is at most half
the period (R11, R13). -/
theorem slewFor_pos {p : Nat} {e : Int} (he : 2 * e.natAbs ≤ p) (x : Slew) (hx : slewFor p e = some x) :
    1 ≤ x.left ∧ 1 ≤ x.spacing := by
  unfold slewFor at hx
  split at hx
  · cases hx
  · next he0 =>
    cases hx
    exact ⟨Int.natAbs_pos.2 he0, Nat.div_pos (by omega) (by omega)⟩

theorem Timebase.badPulse_state_ne_stopped {t : Timebase} (h : t.state ≠ .stopped) (e : Int) :
    (t.badPulse e).tb.state ≠ .stopped := by
  unfold Timebase.badPulse
  split
  · split
    · exact nofun
    · exact h
  · exact h

theorem RunningSafe.badPulse {t : Timebase} (h : RunningSafe t) (hr : t.state ≠ .stopped) (e : Int) :
    RunningSafe (t.badPulse e).tb := by
  refine ⟨?_, fun hs => absurd hs (Timebase.badPulse_state_ne_stopped hr e), ?_⟩
  · unfold Timebase.badPulse
    split
    · next hl =>
      split
      · simp
      · simp [hl, Timebase.pulseTimer]
    · exact h.missTimer_iff_locked
  · have hslew : (t.badPulse e).tb.slew = t.slew := by
      unfold Timebase.badPulse
      split
      · split <;> rfl
      · rfl
    rw [hslew]
    exact h.slew_pos

theorem Timebase.pulse_state_ne_stopped {t : Timebase} (h : t.state ≠ .stopped) :
    t.pulse.effect.tb.state ≠ .stopped := by
  unfold Timebase.pulse
  simp only
  split
  · rw [Timebase.lockOn_state]; exact nofun
  · split
    · rw [Timebase.lockOn_state]; exact nofun
    · exact Timebase.badPulse_state_ne_stopped (t := { t with slew := none, lastError := _ }) h _

/-- Half the period is at least the phase error's magnitude. -/
theorem natAbs_phaseError_le (v : Time) {p : Nat} (hp : 0 < p) : 2 * (phaseError v p).natAbs ≤ p := by
  obtain ⟨h1, h2, -⟩ := phaseError_range v hp
  omega

theorem RunningSafe.pulse {t : Timebase} (h : RunningSafe t) (hr : t.state ≠ .stopped) (hp : t.period ≠ 0) :
    RunningSafe t.pulse.effect.tb := by
  have hpos : 0 < t.period.toNat := Nat.pos_of_ne_zero fun h0 => hp (BitVec.eq_of_toNat_eq h0)
  unfold Timebase.pulse
  simp only
  split
  · exact RunningSafe.lockOn (slewFor_pos (natAbs_phaseError_le _ hpos)) _
  · split
    · exact RunningSafe.lockOn (fun x (hx : none = some x) => nomatch hx) _
    · exact RunningSafe.badPulse (t := { t with slew := none, lastError := _ })
        ⟨h.missTimer_iff_locked, fun hs => absurd hs hr, nofun⟩ hr _

theorem RunningSafe.advanced {t : Timebase} (h : RunningSafe t) (hr : t.state ≠ .stopped) (sync : Bool) :
    RunningSafe (t.advanced sync) := by
  refine ⟨?_, fun hs => absurd hs hr, fun x hx => ?_⟩
  · simpa [Timebase.advanced] using h.missTimer_iff_locked
  · simp only [Timebase.advanced] at hx
    split at hx
    · obtain ⟨y, hy, rfl⟩ := Option.map_eq_some_iff.1 hx
      exact h.slew_pos y hy
    · exact h.slew_pos x hx

/-- The end of a tick writes what the tick was, and nothing that a rule rests on. -/
theorem RunningSafe.ticked {t : Timebase} (h : RunningSafe t) : RunningSafe t.ticked := ⟨h.1, h.2, h.3⟩

theorem Timebase.tick_state_ne_stopped {t : Timebase} (h : t.state ≠ .stopped) (sync first : Bool) :
    (t.tick sync first).effect.tb.state ≠ .stopped := by
  unfold Timebase.tick
  simp only
  split
  · exact Timebase.pulse_state_ne_stopped (Timebase.expireFirst_state_ne_stopped (t := t.advanced sync) h first)
  · exact h

theorem RunningSafe.tick {t : Timebase} (h : RunningSafe t) (hr : t.state ≠ .stopped) (hp : t.period ≠ 0)
    (sync first : Bool) : RunningSafe (t.tick sync first).effect.tb := by
  unfold Timebase.tick
  simp only
  split
  · refine ((h.advanced hr sync).expireFirst first).pulse
      (Timebase.expireFirst_state_ne_stopped (t := t.advanced sync) hr first) ?_ |>.ticked
    have hperiod := (t.advanced sync).expireFirst_settings first
    simp only [Timebase.settings, Prod.mk.injEq] at hperiod
    rw [hperiod.2.1]
    exact hp
  · exact (h.advanced hr sync).ticked

theorem RunningSafe.adjust {t : Timebase} (h : RunningSafe t) (hr : t.state ≠ .stopped) :
    RunningSafe t.adjust := by
  unfold Timebase.adjust
  split
  · exact h
  · next x hx =>
    refine ⟨h.missTimer_iff_locked, fun hs => absurd hs hr, fun y hy => ?_⟩
    obtain ⟨hl, hy⟩ := Option.ite_none_left_eq_some.1 hy
    cases hy
    exact ⟨by simp only at hl ⊢; omega, (h.slew_pos x hx).2⟩

theorem TimebaseSafe.setSwitches {t : Timebase} (h : TimebaseSafe t) (a b c : Bool) :
    TimebaseSafe (t.setSwitches a b c) := by
  obtain ⟨h1, h2, h3, h4, h5, h6, h7⟩ := h
  unfold Timebase.setSwitches
  simp only
  split
  · exact ⟨h1, h2, h3, h4, by simp, nofun, nofun⟩
  · exact ⟨h1, h2, h3, h4, h5, h6, h7⟩

theorem TimebaseSafe.stopped {t : Timebase} (h : TimebaseSafe t) : TimebaseSafe t.stopped := by
  unfold Timebase.stopped
  split
  · exact h
  · exact ⟨h.1, h.2, h.3, h.4, by simp, fun _ => ⟨rfl, rfl⟩, nofun⟩

theorem TimebaseSafe.resets {t u : Timebase} (h : TimebaseSafe t) (hr : t.Resets u) : TimebaseSafe u := by
  obtain ⟨⟨_, _, _, _, _, _, _, _, rfl⟩, h1, h2, h3, h4⟩ := hr
  exact ⟨h1 h.1, h2 h.2, h3 h.3, h4 h.4, h.5, h.6, h.7⟩

theorem TimebaseSafe.expiry {t : Timebase} (h : TimebaseSafe t) (hd : t.expiryDue = true) :
    TimebaseSafe { t.expire.tb with tickState := t.expire.tb.state } := by
  obtain ⟨hs, hr⟩ := (timebaseSafe_iff t).1 h
  exact (timebaseSafe_iff _).2 ⟨hs.of_eq t.expire_settings, ⟨(hr.expire hd).1, (hr.expire hd).2, (hr.expire hd).3⟩⟩

theorem TimebaseSafe.adjust {t : Timebase} (h : TimebaseSafe t) (hr : t.state ≠ .stopped) :
    TimebaseSafe t.adjust := by
  obtain ⟨hs, hrun⟩ := (timebaseSafe_iff t).1 h
  exact (timebaseSafe_iff _).2 ⟨hs.of_eq t.adjust_settings, hrun.adjust hr⟩

theorem TimebaseSafe.tick {t : Timebase} (h : TimebaseSafe t) (hr : t.state ≠ .stopped) (sync first : Bool) :
    TimebaseSafe (t.tick sync first).effect.tb := by
  obtain ⟨hs, hrun⟩ := (timebaseSafe_iff t).1 h
  exact (timebaseSafe_iff _).2 ⟨hs.of_eq (t.tick_settings sync first), hrun.tick hr hs.period_pos sync first⟩

theorem timebaseSafe_reset : TimebaseSafe State.reset.tb :=
  ⟨by decide, by decide, by decide, by decide, by decide, fun _ => ⟨rfl, rfl⟩, nofun⟩

/-! ### Every step -/

theorem TimebaseSafe.timebaseMove {more : Prop} {s t : State} (h : TimebaseMove more s t)
    (hs : TimebaseSafe s.tb) : TimebaseSafe t.tb := by
  cases h with
  | expire hd => exact hs.expiry hd
  | stop _ _ => exact hs.stopped
  | adjust _ hr => exact hs.adjust hr
  | switches _ a b c => exact hs.setSwitches a b c
  | settings _ t hr => exact hs.resets hr

theorem TimebaseSafe.move {more : Prop} {s t : State} (h : Move more s t) (hs : TimebaseSafe s.tb) :
    TimebaseSafe t.tb := by
  cases h with
  | pool h => exact h.keeps (P := fun t => TimebaseSafe t.tb) fun _ _ _ _ => hs
  | reflex h => exact h.keeps (P := fun t => TimebaseSafe t.tb) fun _ _ _ _ => hs
  | schedule h => exact h.keeps (P := fun t => TimebaseSafe t.tb) fun _ _ _ _ => hs
  | timebase h => exact hs.timebaseMove h
  | input h => exact h.keeps (P := fun t => TimebaseSafe t.tb) fun _ => hs
  | output h => exact h.keeps (P := fun t => TimebaseSafe t.tb) fun _ _ => hs
  | part h =>
    cases h with
    | preset _ _ _ => exact ⟨hs.1, hs.2, hs.3, hs.4, hs.5, hs.6, hs.7⟩
    | run _ _ => exact hs
    | halt _ => exact (reflexOnly_halt s).keeps (P := fun t => TimebaseSafe t.tb) fun _ _ _ _ => hs
    | softReset _ => exact hs
    | deviceReset _ _ => exact timebaseSafe_reset
  | offer => exact hs
  | marks => exact hs
  | window => exact hs

theorem TimebaseSafe.started {s : State} (hs : TimebaseSafe s.tb) (h : s.tb.state = .stopped) (a b c : Bool) :
    TimebaseSafe (s.started a b c).tb := by
  have hfree : TimebaseSafe { s.tb with
      state := .free, missCount := 0, badCount := 0, missReached := false, badReached := false
      syncLevel := none } := by
    refine ⟨hs.1, hs.2, hs.3, hs.4, ?_, nofun, hs.7⟩
    have hnone := hs.missTimer_iff_locked.not.2 (by rw [h]; exact nofun)
    simp [Bool.eq_false_iff.2 hnone]
  exact hfree.setSwitches a b c

theorem TimebaseSafe.makeTick {s : State} (hs : TimebaseSafe s.tb) (h : s.tb.state ≠ .stopped)
    (samples : BitVec 64) (sync first : Bool) : TimebaseSafe (s.makeTick samples sync first).tb := by
  rw [makeTick_tb, State.slewAdjust_eq s h]
  simp only
  split
  · refine (hs.adjust h).tick ?_ sync first
    unfold Timebase.adjust
    split <;> exact h
  · exact hs.tick h sync first

/-- A tick that is completed leaves its Timebase running. -/
theorem completeTick_state_ne_stopped {s : State} (h : s.tb.state ≠ .stopped) :
    s.completeTick.tb.state ≠ .stopped := by
  rw [completeTick_tb, State.missExpiry_tb]
  split
  · exact Timebase.expire_state_ne_stopped h
  · exact h

/-- Settles O54: the moves, START and the tick keep `TimebaseSafe`. -/
theorem stepKeepsTheTimebaseSafe : Obligations.StepKeepsTheTimebaseSafe := fun _ _ hs h =>
  step_keeps (P := fun s => TimebaseSafe s.tb) (fun _ _ hs => hs) (fun _ _ hm hs => hs.move hm)
    (fun _ a b c _ hst hs => hs.started hst a b c)
    (fun _ samples sync first hrun _ hc =>
      hc.makeTick (completeTick_state_ne_stopped hrun) samples sync first) hs h

end Sys2Proof.Machine
end

section
/-!
PROOFS. The lines and the device mode (R23 to R31, R39, R41, R169 to R172, R177): what a completed tick leaves
of qualifications, and the two invariants under the moves, START and the tick.
-/
namespace Sys2Proof.Machine

/-! ### A completed tick leaves no qualification -/

theorem ReflexOnly.lines {s t : State} (h : ReflexOnly s t) : t.lines = s.lines := by
  obtain ⟨_, _, _, _, rfl⟩ := h; rfl

theorem passChange_lines (s : State) (n : LineNo) (v : Bool) (f : LineNo → Bool) :
    (s.passChange n v f).lines = s.lines := (reflexOnly_passChange s n v f).lines

theorem recordEdge_lines (s : State) (n : LineNo) (v : Bool) (o : Onset) (w : Option ChatterWindow) :
    (s.recordEdge n v o w).lines = s.lines.set n (((s.lines.get n).recorded o w).qualified v) := by
  unfold State.recordEdge State.drawIf
  simp only
  split <;> rfl

/-- A change that is handled writes its own line, which then stands STABLE. -/
theorem handleChange_lines (s : State) (n : LineNo) (v : Bool) (o : Onset) :
    ∃ l, (s.handleChange n v o).lines = s.lines.set n l ∧ l.qualifier = .stable := by
  unfold State.handleChange
  simp only
  split
  · split
    · split
      · exact ⟨_, by rw [passChange_lines, recordEdge_lines], rfl⟩
      · exact ⟨_, rfl, rfl⟩
    · exact ⟨_, by rw [passChange_lines, State.setLine_lines], rfl⟩
  · exact ⟨_, rfl, rfl⟩
  · exact ⟨_, rfl, rfl⟩
  · exact ⟨_, rfl, rfl⟩

theorem Line.qualifies_stable {l : Line} (h : l.qualifier = .stable) : l.qualifies = false := by
  simp [Line.qualifies, h]

/-- QUALIFICATION of a line, while the Timebase runs, leaves it no qualification to take. -/
theorem qualify_lines {s : State} (h : s.tb.state ≠ .stopped) (n : LineNo) :
    ∃ l, (s.qualify n).lines = s.lines.set n l ∧ l.qualifies = false := by
  unfold State.qualify
  rw [State.whenTickDue_running h]
  unfold State.whenDue
  split
  · next hq =>
    beta_reduce
    split
    · next hst =>
      rw [Line.qualifies_stable hst] at hq
      cases hq
    · next v o _ _ =>
      obtain ⟨l, hl, hst⟩ := handleChange_lines s n v o
      exact ⟨l, hl, Line.qualifies_stable hst⟩
  · next hq => exact ⟨s.lines.get n, (Bank.set_get _ _).symm, Bool.eq_false_iff.2 hq⟩

/-- QUALIFICATION gives no line another qualification. -/
theorem qualify_qualifies {s : State} (h : s.tb.state ≠ .stopped) (n m : LineNo) :
    ((s.qualify n).lines.get m).qualifies = if m = n then false else (s.lines.get m).qualifies := by
  obtain ⟨l, hl, hq⟩ := qualify_lines h n
  rw [hl, Bank.get_set]
  split
  · exact hq
  · rfl

theorem InputOnly.tb {s t : State} (h : InputOnly s t) : t.tb = s.tb := by
  obtain ⟨_, _, _, _, _, _, rfl⟩ := h; rfl

/-- RELEASE gives no line a qualification to take. -/
theorem releaseIfDue_qualifies (s : State) (n m : LineNo) :
    ((s.releaseIfDue n).lines.get m).qualifies = (s.lines.get m).qualifies := by
  unfold State.releaseIfDue
  rcases s.whenTickDue_cases (s.releaseDue n) (fun t => t.releaseLine n) with ⟨-, -, e⟩ | ⟨-, e⟩
  · rw [e]
    have hlines : (s.releaseLine n).lines = s.lines.set n (s.lines.get n).released := by
      unfold State.releaseLine
      simp only
      split <;> rfl
    rw [hlines, Bank.get_set]
    split
    · next h => rw [h]; rfl
    · rfl
  · rw [e]

/-- What is done for every number establishes for each what its own part establishes and the others keep. -/
theorem forEach_each {n : Nat} {f : Fin n → State → State} {I : State → Prop} {Q : Fin n → State → Prop}
    (hI : ∀ i t, I t → I (f i t)) (hself : ∀ i t, I t → Q i (f i t))
    (hkeep : ∀ i j t, I t → Q j t → Q j (f i t)) {s : State} (hs : I s) : ∀ i, Q i (forEach f s) := by
  have h : ∀ (is : List (Fin n)) (t : State), I t →
      I (is.foldl (fun t i => f i t) t) ∧ ∀ j, (j ∈ is ∨ Q j t) → Q j (is.foldl (fun t i => f i t) t) := by
    intro is
    induction is with
    | nil => exact fun t ht => ⟨ht, fun j hj => hj.resolve_left List.not_mem_nil⟩
    | cons i is ih =>
      intro t ht
      refine ⟨(ih _ (hI i t ht)).1, fun j hj => (ih _ (hI i t ht)).2 j ?_⟩
      rcases hj with hj | hj
      · rcases List.mem_cons.1 hj with rfl | hj
        · exact Or.inr (hself j t ht)
        · exact Or.inl hj
      · exact Or.inr (hkeep i j t ht hj)
  exact fun i => (h _ s hs).2 i (Or.inl (List.mem_finRange i))

/-- After the capture of a tick no qualification is left to take (R28). -/
theorem finishCapture_qualifies {s : State} (h : s.tb.state ≠ .stopped) (m : LineNo) :
    (s.finishCapture.lines.get m).qualifies = false := by
  have hall : ∀ m, ((forEach (fun n t => t.qualify n) s).lines.get m).qualifies = false :=
    forEach_each (I := fun t => t.tb.state ≠ .stopped) (Q := fun m t => (t.lines.get m).qualifies = false)
      (fun n t ht => by rw [(inputOnly_qualify t n).tb]; exact ht)
      (fun n t ht => by rw [qualify_qualifies ht]; exact if_pos rfl)
      (fun n m t ht hm => by rw [qualify_qualifies ht, hm, ite_self]) h
  unfold State.finishCapture
  simp only
  have hr (t : State) : ∀ m, ((forEach (fun n t => t.releaseIfDue n) t).lines.get m).qualifies =
      (t.lines.get m).qualifies := fun m =>
    forEach_same (fun t => (t.lines.get m).qualifies) (fun n t => releaseIfDue_qualifies t n m) t
  have hd (t : State) : (forEach (fun i t => t.delayOut i) t).lines = t.lines :=
    forEach_same (·.lines) (fun i t => (reflexOnly_delayOut t i).lines) t
  have hw (t : State) : (forEach (fun i t => t.widthOut i) t).lines = t.lines :=
    forEach_same (·.lines) (fun i t => (reflexOnly_widthOut t i).lines) t
  rw [hw, hd, hr, hall]

/-- What TICK does behind the capture, before the next tick, leaves the lines. -/
theorem completeTick_lines (s : State) : s.completeTick.lines = s.missExpiry.finishCapture.lines := by
  unfold State.completeTick State.finishTick
  simp only
  obtain ⟨_, _, _, _, e⟩ := State.takeClaims_frame (forEach (fun g t => t.ageRunsOut g)
    (State.fireHeads s.missExpiry.finishCapture.sched.active.length
      s.missExpiry.finishCapture).commitReached).claims.length (forEach (fun g t => t.ageRunsOut g)
    (State.fireHeads s.missExpiry.finishCapture.sched.active.length
      s.missExpiry.finishCapture).commitReached)
  rw [e]
  have hage (t : State) : (forEach (fun g t => t.ageRunsOut g) t).lines = t.lines :=
    forEach_same (·.lines) (fun g t => by obtain ⟨_, e⟩ := t.ageRunsOut_frame g; rw [e]) t
  simp only [hage]
  obtain ⟨_, _, _, _, e1⟩ := scheduleOnly_commitReached
    (State.fireHeads s.missExpiry.finishCapture.sched.active.length s.missExpiry.finishCapture)
  obtain ⟨_, _, _, _, e2⟩ := scheduleOnly_fireHeads
    s.missExpiry.finishCapture.sched.active.length s.missExpiry.finishCapture
  rw [e1, e2]

theorem missExpiry_state_ne_stopped {s : State} (h : s.tb.state ≠ .stopped) :
    s.missExpiry.tb.state ≠ .stopped := by
  rw [State.missExpiry_tb]
  split
  · exact Timebase.expire_state_ne_stopped h
  · exact h

theorem completeTick_qualifies {s : State} (h : s.tb.state ≠ .stopped) (m : LineNo) :
    (s.completeTick.lines.get m).qualifies = false := by
  rw [completeTick_lines]
  exact finishCapture_qualifies (missExpiry_state_ne_stopped h) m

/-! ### Lines -/

/-- A line with a pending change is sampled, and its level is established. -/
theorem LineSafe.of_pending {l : Line} (h : LineSafe l) {v o k} (hq : l.qualifier = .pending v o k) :
    (l.state ≠ .off ∧ l.state ≠ .idle) ∧ l.established = true := by
  have hclear : ¬(l.state = .off ∨ l.state = .idle) := fun hs => by
    have := (h.unsampled_clear hs).2.1
    rw [hq] at this
    cases this
  refine ⟨not_or.1 hclear, ?_⟩
  cases he : l.established
  · have := (h.unestablished_clear he).2
    rw [hq] at this
    cases this
  · rfl

theorem LineSafe.quieted {l : Line} {st : LineState} (hoff : st = .off ↔ l.config.on = false)
    (hs : st ≠ .suppressed) (m : Bool) : LineSafe { l.quieted st with firstMark := m } :=
  ⟨hoff, fun _ => ⟨rfl, rfl, rfl, rfl⟩, ⟨nofun, fun h => absurd h hs⟩, fun _ => ⟨rfl, rfl⟩, nofun⟩

theorem LineSafe.work {l l' : Line} (h : LineSafe l) (hw : LineWork l l') : LineSafe l' := by
  cases hw with
  | qualified v o k hq =>
    obtain ⟨⟨ho, hi⟩, he⟩ := h.of_pending hq
    exact ⟨h.1, fun hs => absurd hs (not_or.2 ⟨ho, hi⟩), h.3, fun hn => absurd (hn.symm.trans he) nofun, nofun⟩
  | recorded v o k w hq =>
    obtain ⟨⟨ho, hi⟩, he⟩ := h.of_pending hq
    exact ⟨h.1, fun hs => absurd hs (not_or.2 ⟨ho, hi⟩), h.3, fun hn => absurd (hn.symm.trans he) nofun, nofun⟩
  | suppressed v o k hq hl =>
    obtain ⟨⟨ho, -⟩, he⟩ := h.of_pending hq
    have hon := h.off_iff.not.1 ho
    exact ⟨⟨nofun, fun hf => absurd hf hon⟩, nofun, ⟨fun _ => rfl, fun _ => rfl⟩,
      fun hn => absurd (hn.symm.trans he) nofun, nofun⟩
  | restarted v o k hq hl =>
    obtain ⟨⟨ho, hi⟩, he⟩ := h.of_pending hq
    exact ⟨h.1, fun hs => absurd hs (not_or.2 ⟨ho, hi⟩), ⟨fun _ => hl, fun _ => rfl⟩,
      fun hn => absurd (hn.symm.trans he) nofun, nofun⟩
  | released hl =>
    have hon := h.off_iff.not.1 (by rw [hl]; exact nofun)
    exact ⟨⟨nofun, fun hf => absurd hf hon⟩, nofun, ⟨nofun, nofun⟩, nofun, h.5⟩

theorem LineSafe.write {m : Mode} {l l' : Line} (hw : LineWrite m l l') : LineSafe l' := by
  cases hw with
  | off c h =>
    exact LineSafe.quieted (st := .off) (l := { l with config := c }) ⟨fun _ => h, fun _ => rfl⟩ nofun l.firstMark
  | idle c h _ =>
    exact LineSafe.quieted (st := .idle) (l := { l with config := c })
      ⟨nofun, fun hf => absurd (h.symm.trans hf) nofun⟩ nofun l.firstMark
  | live c h _ =>
    exact LineSafe.quieted (st := .live) (l := { l with config := c })
      ⟨nofun, fun hf => absurd (h.symm.trans hf) nofun⟩ nofun true

theorem LineSafe.onRun {l : Line} (h : LineSafe l) : LineSafe l.onRun := by
  unfold Line.onRun
  split
  · next hi =>
    have hon := h.off_iff.not.1 (by rw [hi]; exact nofun)
    exact LineSafe.quieted (st := .live) ⟨nofun, fun hf => absurd hf hon⟩ nofun true
  · exact h

theorem Line.sampled_iff (l : Line) : l.sampled = true ↔ l.state = .live ∨ l.state = .suppressed := by
  simp [Line.sampled]

theorem LineSafe.onHalt {l : Line} (h : LineSafe l) : LineSafe l.onHalt := by
  unfold Line.onHalt
  split
  · next hs =>
    have hon := h.off_iff.not.1 (by rcases l.sampled_iff.1 hs with e | e <;> rw [e] <;> exact nofun)
    exact LineSafe.quieted (st := .idle) ⟨nofun, fun hf => absurd hf hon⟩ nofun l.firstMark
  · exact h

theorem LineSafe.countTick {l : Line} (h : LineSafe l) : LineSafe l.countTick := by
  unfold Line.countTick
  split
  · next hs =>
    obtain ⟨hs, -⟩ := Bool.and_eq_true_iff.1 hs
    refine ⟨h.1, fun hu => ?_, by simpa using h.3, h.4, h.5⟩
    rcases l.sampled_iff.1 hs with e | e <;> simp [e] at hu
  · exact h

theorem LineSafe.rebase {l : Line} (h : LineSafe l) (a : Time) (e : BitVec 4) : LineSafe (l.rebase a e) := by
  obtain ⟨h1, h2, h3, h4, h5⟩ := h
  unfold Line.rebase
  cases hq : l.qualifier with
  | stable => exact ⟨h1, fun hs => ⟨(h2 hs).1, rfl, (h2 hs).2.2⟩, h3, fun hn => ⟨(h4 hn).1, rfl⟩, nofun⟩
  | pending v o k =>
    refine ⟨h1, fun hs => ?_, h3, fun hn => ?_, fun v' o' k' e' => ?_⟩
    · exact absurd (hq.symm.trans (h2 hs).2.1) nofun
    · exact absurd (hq.symm.trans (h4 hn).2) nofun
    · cases e'
      exact h5 v o k hq

/-- The sample of a line keeps it sound where no qualification was left to take. -/
theorem LineSafe.sample {l : Line} (h : LineSafe l) (hq : l.qualifies = false) (b : Bool) (now : Onset) :
    LineSafe (l.sample b now) := by
  unfold Line.sample
  split
  · exact h
  · next hs =>
    have hs' : l.state = .live ∨ l.state = .suppressed := l.sampled_iff.1 (by simpa using hs)
    have hno : ¬(l.state = .off ∨ l.state = .idle) := by rcases hs' with e | e <;> simp [e]
    split
    · next he =>
      have he' : l.established = false := by simpa using he
      have hst := (h.unestablished_clear he').2
      exact ⟨h.1, fun hu => absurd hu hno, h.3, nofun, fun v o k e => absurd (hst.symm.trans e) nofun⟩
    · next he =>
      have he' : l.established = true := by simpa using he
      have hest {p : Prop} (hn : l.established = false) : p := absurd (hn.symm.trans he') nofun
      split
      · split
        · exact h
        · next hb =>
          refine ⟨h.1, fun hu => absurd hu hno, h.3, fun hn => hest hn, fun v o k e => ?_⟩
          cases e
          exact ⟨hb, Nat.le_refl 1, by omega⟩
      · next v o k hp =>
        split
        · next hb =>
          refine ⟨h.1, fun hu => absurd hu hno, h.3, fun hn => hest hn, fun v' o' k' e => ?_⟩
          cases e
          obtain ⟨h1, h2, h3⟩ := h.5 v o k hp
          simp only [Line.qualifies, hp, decide_eq_false_iff_not] at hq
          exact ⟨h1, by omega, by simp only; omega⟩
        · exact ⟨h.1, fun hu => absurd hu hno, h.3, fun hn => hest hn, nofun⟩

theorem Line.countTick_qualifies (l : Line) : l.countTick.qualifies = l.qualifies := by
  unfold Line.countTick
  split <;> rfl

theorem Line.rebase_qualifies (l : Line) (a : Time) (e : BitVec 4) : (l.rebase a e).qualifies = l.qualifies := by
  unfold Line.rebase Line.qualifies
  simp only
  cases l.qualifier <;> rfl

/-- A line as a tick finds it before the sample: the tick counted, and rebased at a step. -/
def Line.moved (step : Option Time) (epoch : BitVec 4) (l : Line) : Line :=
  match step with
  | none => l.countTick
  | some a => l.countTick.rebase a epoch

theorem tickLines_get (s : State) (samples : BitVec 64) (step : Option Time) (n : LineNo) :
    (s.tickLines samples step).lines.get n =
      ((s.lines.get n).moved step s.tb.epoch).sample (samples.getLsbD n.val)
        ⟨s.tb.counter, s.tb.epoch, s.tb.tickState, false⟩ := by
  cases step <;> simp only [State.tickLines, Line.moved, Bank.get_mapIdx]

theorem LineSafe.tick {s : State} (h : LinesSafe s) (hq : ∀ n, (s.lines.get n).qualifies = false)
    (samples : BitVec 64) (step : Option Time) : LinesSafe (s.tickLines samples step) := by
  intro n
  rw [tickLines_get]
  cases step with
  | none => exact (h n).countTick.sample ((Line.countTick_qualifies _).trans (hq n)) _ _
  | some a =>
    exact ((h n).countTick.rebase a _).sample
      ((Line.rebase_qualifies _ _ _).trans ((Line.countTick_qualifies _).trans (hq n))) _ _

/-! ### The frame of the tick -/

/-- The blocks' work at a tick leaves of the lines what their samples make. -/
theorem blockTick_lines (s : State) (samples : BitVec 64) (step : Option Time) (v : Time) :
    (s.blockTick samples step v).lines = (s.tickLines samples step).lines := by
  unfold State.blockTick
  simp only
  split
  · rfl
  · obtain ⟨_, _, _, _, e⟩ := stepEntries_frame (s.tickLines samples (some _)).countSlots.countAges.runNotice v
    rw [e]
    rfl

theorem blockTick_slots (s : State) (samples : BitVec 64) (step : Option Time) (v : Time) :
    (s.blockTick samples step v).slots = s.countSlots.slots := by
  unfold State.blockTick
  simp only
  split
  · rfl
  · obtain ⟨_, _, _, _, e⟩ := stepEntries_frame (s.tickLines samples (some _)).countSlots.countAges.runNotice v
    rw [e]
    rfl

/-- The Timebase's part of a tick: the state after its own records and its notice (R1, R18, R19). -/
def State.timebaseTick (s : State) (sync first : Bool) : State :=
  s.slewAdjust.timebaseEffect (s.slewAdjust.tb.tick sync first).effect

theorem makeTick_eq (s : State) (samples : BitVec 64) (sync first : Bool) :
    s.makeTick samples sync first = (s.timebaseTick sync first).blockTick samples
      (s.slewAdjust.tb.tick sync first).step (s.slewAdjust.tb.tick sync first).before := rfl

theorem timebaseTick_frame (s : State) (sync first : Bool) : TimebaseOnly s (s.timebaseTick sync first) := by
  obtain ⟨cl, cs, fl, e⟩ := s.slewAdjust.timebaseEffect_frame (s.slewAdjust.tb.tick sync first).effect
  exact (timebaseOnly_slewAdjust s).trans ⟨_, cl, cs, fl, e⟩

theorem TimebaseOnly.keeps {s t : State} {P : State → Prop} (h : TimebaseOnly s t)
    (hP : ∀ tb cl cs fl, P { s with tb := tb, claims := cl, causes := cs, errFlags := fl }) : P t := by
  obtain ⟨tb, cl, cs, fl, rfl⟩ := h
  exact hP tb cl cs fl

theorem LinesSafe.makeTick {s : State} (h : LinesSafe s) (hq : ∀ n, (s.lines.get n).qualifies = false)
    (samples : BitVec 64) (sync first : Bool) : LinesSafe (s.makeTick samples sync first) := by
  intro n
  rw [makeTick_eq, blockTick_lines]
  refine LineSafe.tick (?_ : LinesSafe (s.timebaseTick sync first)) ?_ samples _ n
  · exact (timebaseTick_frame s sync first).keeps fun _ _ _ _ => h
  · exact (timebaseTick_frame s sync first).keeps (P := fun t => ∀ n, (t.lines.get n).qualifies = false)
      fun _ _ _ _ => hq

theorem LinesSafe.setLine {s : State} (h : LinesSafe s) {n : LineNo} {l : Line} (hl : LineSafe l) :
    LinesSafe (s.setLine n l) := by
  intro m
  rw [State.setLine_lines, Bank.get_set]
  split
  · exact hl
  · exact h m

theorem lineSafe_reset (n : LineNo) : LineSafe (State.reset.lines.get n) := by
  rw [State.reset, Bank.get_fill]
  exact ⟨by simp, fun _ => ⟨rfl, rfl, rfl, rfl⟩, by simp, fun _ => ⟨rfl, rfl⟩, nofun⟩

theorem LinesSafe.move {more : Prop} {s t : State} (h : Move more s t) (hs : LinesSafe s) : LinesSafe t := by
  cases h with
  | pool h => exact h.keeps fun _ _ _ _ => hs
  | reflex h => exact h.keeps fun _ _ _ _ => hs
  | schedule h => exact h.keeps fun _ _ _ _ => hs
  | timebase h => exact h.keeps fun _ => hs
  | input h =>
    cases h with
    | work n l hw => exact hs.setLine ((hs n).work hw)
    | write _ n l hw => exact hs.setLine (LineSafe.write hw)
  | output h => exact h.keeps fun _ _ => hs
  | part h =>
    cases h with
    | preset _ _ _ => exact hs
    | run _ _ => intro n; simp only [Bank.get_map]; exact (hs n).onRun
    | halt _ =>
      refine (reflexOnly_halt s).keeps fun _ _ _ _ n => ?_
      simp only [Bank.get_map]
      exact (hs n).onHalt
    | softReset _ => exact lineSafe_reset
    | deviceReset _ _ => exact lineSafe_reset
  | offer => exact hs
  | marks => exact hs
  | window => exact hs

/-! ### The device mode -/

theorem Line.moved_state (l : Line) (step : Option Time) (e : BitVec 4) : (l.moved step e).state = l.state := by
  have hc : l.countTick.state = l.state := by
    unfold Line.countTick
    split <;> rfl
  cases step with
  | none => exact hc
  | some a => exact hc

theorem Line.sample_state (l : Line) (b : Bool) (now : Onset) : (l.sample b now).state = l.state := by
  unfold Line.sample
  split
  · rfl
  · split
    · rfl
    · split
      · split <;> rfl
      · split <;> rfl

theorem makeTick_line_state (s : State) (samples : BitVec 64) (sync first : Bool) (n : LineNo) :
    ((s.makeTick samples sync first).lines.get n).state = (s.lines.get n).state := by
  rw [makeTick_eq, blockTick_lines, tickLines_get, Line.sample_state, Line.moved_state]
  obtain ⟨_, _, _, _, e⟩ := timebaseTick_frame s sync first
  rw [e]

/-- What becomes of a line at a happening of the tick is sampled where the line was, and never IDLE where it
was not. -/
theorem LineWork.state {l l' : Line} (h : LineWork l l') :
    (l.state ≠ .idle → l'.state ≠ .idle) ∧ (l.sampled = false → l'.sampled = false) := by
  cases h with
  | qualified v o k hq => exact ⟨id, id⟩
  | recorded v o k w hq => exact ⟨id, id⟩
  | suppressed v o k hq hl => exact ⟨fun _ => nofun, fun hs => by simp [Line.sampled, hl] at hs⟩
  | restarted v o k hq hl => exact ⟨id, id⟩
  | released hl => exact ⟨fun _ => nofun, fun hs => by simp [Line.sampled, hl] at hs⟩

theorem LineWrite.state {m : Mode} {l l' : Line} (h : LineWrite m l l') :
    (m = .run → l'.state ≠ .idle) ∧ (m = .config → l'.sampled = false) := by
  cases h with
  | off c h => exact ⟨fun _ => nofun, fun _ => rfl⟩
  | idle c h hm => exact ⟨fun hr => absurd (hm.symm.trans hr) nofun, fun _ => rfl⟩
  | live c h hm => exact ⟨fun _ => nofun, fun hc => absurd (hm.symm.trans hc) nofun⟩

/-- The rules of `ModeSafe` that rest on the mode and the lines. -/
structure ModeLines (s : State) : Prop where
  run_no_idle : s.mode = .run → ∀ n, (s.lines.get n).state ≠ .idle
  config_not_sampled : s.mode = .config → ∀ n, (s.lines.get n).sampled = false

/-- The rule of `ModeSafe` on the slots. -/
def ModeSlots (s : State) : Prop := s.mode = .config → ∀ i, (s.slots.get i).state = .disarmed

/-- The rules of `ModeSafe` on the Timebase. -/
structure ModeTimebase (s : State) : Prop where
  run_ticks : s.mode = .run → s.tb.state ≠ .stopped
  reset_stops : s.inReset = true → s.mode = .config ∧ s.tb.state = .stopped

theorem modeSafe_iff (s : State) : ModeSafe s ↔ ModeLines s ∧ ModeSlots s ∧ ModeTimebase s :=
  ⟨fun ⟨a, b, c, d, e⟩ => ⟨⟨b, c⟩, d, ⟨a, e⟩⟩, fun ⟨⟨b, c⟩, d, ⟨a, e⟩⟩ => ⟨a, b, c, d, e⟩⟩

theorem modeLines_reset {m : Mode} (hm : m = .config) :
    ModeLines { State.reset with mode := m } :=
  ⟨fun h => absurd (hm.symm.trans h) nofun, fun _ n => by simp [State.reset]; rfl⟩

theorem ModeLines.move {more : Prop} {s t : State} (h : Move more s t) (hs : ModeLines s) : ModeLines t := by
  cases h with
  | pool h => exact h.keeps fun _ _ _ _ => ⟨hs.1, hs.2⟩
  | reflex h => exact h.keeps fun _ _ _ _ => ⟨hs.1, hs.2⟩
  | schedule h => exact h.keeps fun _ _ _ _ => ⟨hs.1, hs.2⟩
  | timebase h => exact h.keeps fun _ => ⟨hs.1, hs.2⟩
  | input h =>
    have hset (n : LineNo) (l : Line) (h1 : s.mode = .run → l.state ≠ .idle)
        (h2 : s.mode = .config → l.sampled = false) : ModeLines (s.setLine n l) := by
      constructor
      · intro hm m
        rw [State.setLine_lines, Bank.get_set]
        split
        · exact h1 hm
        · exact hs.1 hm m
      · intro hm m
        rw [State.setLine_lines, Bank.get_set]
        split
        · exact h2 hm
        · exact hs.2 hm m
    cases h with
    | work n l hw => exact hset n l (fun hm => hw.state.1 (hs.1 hm n)) fun hm => hw.state.2 (hs.2 hm n)
    | write _ n l hw => exact hset n l hw.state.1 hw.state.2
  | output h => exact h.keeps fun _ _ => ⟨hs.1, hs.2⟩
  | part h =>
    cases h with
    | preset _ _ _ => exact ⟨hs.1, hs.2⟩
    | run _ _ =>
      refine ⟨fun _ n => ?_, nofun⟩
      simp only [Bank.get_map, Line.onRun]
      split
      · exact nofun
      · next h => exact h
    | halt _ =>
      refine (reflexOnly_halt s).keeps fun _ _ _ _ => ⟨nofun, fun _ n => ?_⟩
      simp only [Bank.get_map, Line.onHalt]
      split
      · rfl
      · next h => exact Bool.eq_false_iff.2 h
    | softReset _ => exact ⟨(modeLines_reset rfl).1, (modeLines_reset rfl).2⟩
    | deviceReset _ _ => exact ⟨(modeLines_reset rfl).1, (modeLines_reset rfl).2⟩
  | offer => exact ⟨hs.1, hs.2⟩
  | marks => exact ⟨hs.1, hs.2⟩
  | window => exact ⟨hs.1, hs.2⟩

/-! #### Slots -/

theorem State.reportReflex_slots (s : State) (i : SlotNo) (b : Bool) (r : Record) :
    (s.reportReflex i b r).slots = s.slots := by
  obtain ⟨_, e⟩ := s.reportReflex_frame i b r
  rw [e]

theorem State.beginAssert_slots (s : State) (m : BitVec 32) : (s.beginAssert m).slots = s.slots := by
  obtain ⟨_, _, e⟩ := s.beginAssert_frame m
  rw [e]

/-- A slot as it asserts (R110). -/
def Slot.assert (x : Slot) : Slot :=
  if x.config.width = 0 then { x with state := .holding, timer := none }
  else { x with state := .active, timer := timerFor x.config.width }

theorem State.assertSlot_slots (s : State) (i : SlotNo) :
    (s.assertSlot i).slots = s.slots.set i (s.slots.get i).assert := by
  unfold State.assertSlot Slot.assert
  simp only [State.reportReflex_slots, State.beginAssert_slots, State.setSlot_slots]

theorem State.completePulse_slots (s : State) (i : SlotNo) (c : EndCause) (b : Bool) (st : Stamp) :
    (s.completePulse i c b st).slots = s.slots.set i (s.slots.get i).complete := by
  unfold State.completePulse
  simp only [State.reportReflex_slots]
  rfl

theorem State.disarmSlot_slots (s : State) (i : SlotNo) (c : EndCause) :
    (s.disarmSlot i c).slots = s.slots.set i { s.slots.get i with state := .disarmed, timer := none } := by
  unfold State.disarmSlot
  simp only
  split
  · rw [State.reportReflex_slots]; rfl
  · rfl

/-- A trigger leaves a DISARMED slot alone (R109). -/
theorem State.triggerSlot_disarmed {s : State} {i : SlotNo} (h : (s.slots.get i).state = .disarmed) (v : Bool) :
    s.triggerSlot i v = s := by
  unfold State.triggerSlot
  simp only [h]

theorem forEach_disarm_slots (s : State) (c : EndCause) (i : SlotNo) :
    ((forEach (fun i t => t.disarmSlot i c) s).slots.get i) =
      { s.slots.get i with state := .disarmed, timer := none } := by
  refine forEach_each (I := fun t => ∀ j, t.slots.get j = s.slots.get j ∨
      t.slots.get j = { s.slots.get j with state := .disarmed, timer := none })
    (Q := fun j t => t.slots.get j = { s.slots.get j with state := .disarmed, timer := none })
    (fun i t ht j => ?_) (fun i t ht => ?_) (fun i j t ht hj => ?_) (fun _ => Or.inl rfl) i
  · rw [State.disarmSlot_slots, Bank.get_set]
    split
    · next hji =>
      subst hji
      right
      rcases ht j with e | e <;> rw [e]
    · exact ht j
  · rw [State.disarmSlot_slots, Bank.get_set_eq]
    rcases ht i with e | e <;> rw [e]
  · rw [State.disarmSlot_slots, Bank.get_set]
    split
    · next hji => subst hji; rw [hj]
    · exact hj

theorem ModeSlots.reflexMove {more : Prop} {s t : State} (h : ReflexMove more s t) (hs : ModeSlots s) :
    ModeSlots t := by
  intro hm
  have hmode : t.mode = s.mode := h.keeps (P := fun t => t.mode = s.mode) fun _ _ _ _ => rfl
  have hall := hs (hmode ▸ hm)
  cases h with
  | trigger i v _ => rw [State.triggerSlot_disarmed (hall i)]; exact hall
  | assert i _ hx => exact absurd ((hall i).symm.trans hx) nofun
  | complete i c b st hx _ => rcases hx with hx | hx <;> exact absurd ((hall i).symm.trans hx) nofun
  | disarm _ i c =>
    intro j
    rw [State.disarmSlot_slots, Bank.get_set]
    split
    · rfl
    · exact hall j
  | arm _ i hr _ => exact absurd ((hmode.symm.trans hm).symm.trans hr) nofun
  | configure _ i c hx =>
    intro j
    rw [State.setSlot_slots, Bank.get_set]
    split
    · exact hx
    · exact hall j

theorem slots_reset (i : SlotNo) : (State.reset.slots.get i).state = .disarmed := by
  rw [State.reset, Bank.get_fill]

theorem ModeSlots.move {more : Prop} {s t : State} (h : Move more s t) (hs : ModeSlots s) : ModeSlots t := by
  cases h with
  | pool h => exact h.keeps fun _ _ _ _ => hs
  | reflex h => exact hs.reflexMove h
  | schedule h => exact h.keeps fun _ _ _ _ => hs
  | timebase h => exact h.keeps fun _ => hs
  | input h => exact h.keeps fun _ => hs
  | output h => exact h.keeps fun _ _ => hs
  | part h =>
    cases h with
    | preset _ _ _ => exact hs
    | run _ _ => exact nofun
    | halt _ => exact fun _ i => by rw [State.halt, forEach_disarm_slots]
    | softReset _ => exact fun _ => slots_reset
    | deviceReset _ _ => exact fun _ => slots_reset
  | offer => exact hs
  | marks => exact hs
  | window => exact hs

/-! #### Timebase -/

theorem Timebase.setSwitches_stopped (t : Timebase) (a b c : Bool) :
    (t.setSwitches a b c).state = .stopped ↔ t.state = .stopped := by
  unfold Timebase.setSwitches
  simp only
  split
  · next h =>
    simp only [Bool.and_eq_true, Bool.or_eq_true, beq_iff_eq] at h
    rcases h.2 with e | e <;> simp [e]
  · rfl

theorem ModeTimebase.timebaseMove {more : Prop} {s t : State} (h : TimebaseMove more s t) (hs : ModeTimebase s) :
    ModeTimebase t := by
  cases h with
  | expire hd =>
    have hrun : s.tb.state ≠ .stopped := by rw [Timebase.state_of_expiryDue hd]; exact nofun
    exact ⟨fun _ => Timebase.expire_state_ne_stopped hrun, fun hr => absurd (hs.2 hr).2 hrun⟩
  | stop _ hc =>
    refine ⟨fun hr => absurd (hc.symm.trans hr) nofun, fun hr => ⟨(hs.2 hr).1, ?_⟩⟩
    simp only [State.setTb_tb, Timebase.stopped]
    split
    · next h => exact h
    · rfl
  | adjust _ hrun =>
    have hstate : s.tb.adjust.state = s.tb.state := by
      unfold Timebase.adjust
      split <;> rfl
    exact ⟨fun _ => by rw [State.setTb_tb, hstate]; exact hrun, fun hr => absurd (hs.2 hr).2 hrun⟩
  | switches _ a b c =>
    have hiff := s.tb.setSwitches_stopped a b c
    exact ⟨fun hr => hiff.not.2 (hs.1 hr), fun hr => ⟨(hs.2 hr).1, hiff.2 (hs.2 hr).2⟩⟩
  | settings _ t ht =>
    obtain ⟨⟨_, _, _, _, _, _, _, _, rfl⟩, -⟩ := ht
    exact ⟨hs.1, hs.2⟩

theorem ModeTimebase.move {more : Prop} {s t : State} (h : Move more s t) (hs : ModeTimebase s) :
    ModeTimebase t := by
  cases h with
  | pool h => exact h.keeps fun _ _ _ _ => ⟨hs.1, hs.2⟩
  | reflex h => exact h.keeps fun _ _ _ _ => ⟨hs.1, hs.2⟩
  | schedule h => exact h.keeps fun _ _ _ _ => ⟨hs.1, hs.2⟩
  | timebase h => exact hs.timebaseMove h
  | input h => exact h.keeps fun _ => ⟨hs.1, hs.2⟩
  | output h => exact h.keeps fun _ _ => ⟨hs.1, hs.2⟩
  | part h =>
    cases h with
    | preset _ _ _ => exact ⟨hs.1, hs.2⟩
    | run _ hr => exact ⟨fun _ => hr, fun hreset => absurd (hs.2 hreset).2 hr⟩
    | halt _ =>
      exact (reflexOnly_halt s).keeps fun _ _ _ _ => ⟨nofun, fun hr => ⟨rfl, (hs.2 hr).2⟩⟩
    | softReset _ => exact ⟨nofun, fun hr => ⟨rfl, (hs.2 hr).2⟩⟩
    | deviceReset _ _ => exact ⟨nofun, fun _ => ⟨rfl, rfl⟩⟩
  | offer => exact ⟨hs.1, hs.2⟩
  | marks => exact ⟨hs.1, hs.2⟩
  | window => exact ⟨hs.1, hs.2⟩

/-! ### Every step -/

theorem ModeSafe.move {more : Prop} {s t : State} (h : Move more s t) (hs : ModeSafe s) : ModeSafe t := by
  obtain ⟨hl, hx, ht⟩ := (modeSafe_iff s).1 hs
  exact (modeSafe_iff t).2 ⟨hl.move h, hx.move h, ht.move h⟩

theorem ModeSafe.started {s : State} (hs : ModeSafe s) (hr : s.inReset = false) (a b c : Bool) :
    ModeSafe (s.started a b c) :=
  ⟨fun _ => (Timebase.setSwitches_stopped _ a b c).not.2 nofun, hs.2, hs.3, hs.4,
    fun h => absurd (hr.symm.trans h) nofun⟩

/-- Each field that TICK leaves, by the frames of its parts. -/
theorem makeTick_frame (s : State) (samples : BitVec 64) (sync first : Bool) :
    ∃ u, TimebaseOnly s u ∧ CompletionOnly u (s.makeTick samples sync first) :=
  ⟨_, timebaseTick_frame s sync first, blockTick_frame _ _ _ _⟩

theorem ModeSafe.makeTick {s : State} (hs : ModeSafe s) (h : s.tb.state ≠ .stopped)
    (samples : BitVec 64) (sync first : Bool) : ModeSafe (s.makeTick samples sync first) := by
  have hmode : (s.makeTick samples sync first).mode = s.mode ∧
      (s.makeTick samples sync first).inReset = s.inReset := by
    obtain ⟨_, ⟨_, _, _, _, rfl⟩, ⟨_, _, _, _, _, _, _, _, _, e⟩⟩ := makeTick_frame s samples sync first
    rw [e]
    exact ⟨rfl, rfl⟩
  have hslots (i : SlotNo) :
      ((s.makeTick samples sync first).slots.get i).state = (s.slots.get i).state := by
    rw [makeTick_eq, blockTick_slots]
    obtain ⟨_, _, _, _, e⟩ := timebaseTick_frame s sync first
    rw [e]
    simp [State.countSlots]
  have hstate : (s.makeTick samples sync first).tb.state ≠ .stopped := by
    rw [makeTick_tb]
    refine Timebase.tick_state_ne_stopped ?_ sync first
    rw [State.slewAdjust_eq s h]
    simp only
    split
    · unfold Timebase.adjust
      split <;> exact h
    · exact h
  refine ⟨fun _ => hstate, fun hm n => ?_, fun hm n => ?_, fun hm i => ?_, fun hr => ?_⟩
  · rw [makeTick_line_state]
    exact hs.2 (hmode.1 ▸ hm) n
  · have := hs.3 (hmode.1 ▸ hm) n
    simpa only [Line.sampled, makeTick_line_state] using this
  · rw [hslots]
    exact hs.4 (hmode.1 ▸ hm) i
  · exact absurd (hs.5 (hmode.2 ▸ hr)).2 h

/-- Settles O55: the moves, START and the tick keep both; the sample of a line rests on a completed tick before
it, which leaves no qualification. -/
theorem stepKeepsTheModeAndTheLinesSafe : Obligations.StepKeepsTheModeAndTheLinesSafe :=
  ⟨fun _ _ hs h => step_keeps (P := LinesSafe) (fun _ _ hs => hs) (fun _ _ hm hs => hs.move hm)
    (fun _ _ _ _ _ _ hs => hs)
    (fun _ samples sync first hrun _ hc =>
      hc.makeTick (completeTick_qualifies hrun) samples sync first) hs h,
  fun _ _ hs h => step_keeps (P := ModeSafe) (fun _ _ hs => ⟨hs.1, hs.2, hs.3, hs.4, hs.5⟩)
    (fun _ _ hm hs => hs.move hm) (fun _ a b c hr _ hs => hs.started hr a b c)
    (fun _ samples sync first hrun _ hc =>
      hc.makeTick (completeTick_state_ne_stopped hrun) samples sync first) hs h⟩

end Sys2Proof.Machine
end

section
/-!
PROOFS. What one move of the pool makes of a queue and its group, and the invariants that rest on it: the order
of the undelivered records (R58, R59), sound groups (R67 to R69) and the accounting of the pool (R51, R54).
-/
namespace Sys2Proof.Machine

/-! ### Keys and places (R57, R59) -/

/-- Seen from the other side, a distance on the time circle is its complement. -/
theorem toNat_sub_swap (a b : Time) :
    (a - b).toNat = if (b - a).toNat = 0 then 0 else 2 ^ 48 - (b - a).toNat := by
  split <;> bv_omega

/-- A key is smaller where it is earlier by less than 2^47 ticks, or where neither is earlier and its source
is smaller (R57). -/
theorem Key.lt_iff (a b : Key) :
    a.lt b = true ↔ (1 ≤ (b.time - a.time).toNat ∧ (b.time - a.time).toNat ≤ 2 ^ 47 - 1) ∨
      (((b.time - a.time).toNat = 0 ∨ (b.time - a.time).toNat = 2 ^ 47) ∧ a.source.toNat < b.source.toNat) := by
  have hlt := (b.time - a.time).isLt
  simp only [Key.lt, earlier, toNat_sub_swap a.time b.time, Bool.or_eq_true, Bool.and_eq_true,
    Bool.not_eq_true', decide_eq_true_eq, decide_eq_false_iff_not]
  split <;> omega

theorem Key.lt_asymm {a b : Key} (h : a.lt b = true) : b.lt a = false := by
  have hlt := (b.time - a.time).isLt
  rw [Key.lt_iff] at h
  rw [Bool.eq_false_iff, Ne, Key.lt_iff, toNat_sub_swap a.time b.time]
  split <;> omega

/-- Of two keys one is smaller, unless their timestamps compare as equal and their sources are equal (R57). -/
theorem Key.eq_of_not_lt {a b : Key} (h : a.lt b = false) (h' : b.lt a = false) :
    ((b.time - a.time).toNat = 0 ∨ (b.time - a.time).toNat = 2 ^ 47) ∧ a.source = b.source := by
  have hlt := (b.time - a.time).isLt
  rw [Bool.eq_false_iff, Ne, Key.lt_iff] at h h'
  rw [toNat_sub_swap a.time b.time] at h'
  have hsource : ((b.time - a.time).toNat = 0 ∨ (b.time - a.time).toNat = 2 ^ 47) ∧
      a.source.toNat = b.source.toNat := by
    split at h' <;> omega
  exact ⟨hsource.1, BitVec.eq_of_toNat_eq hsource.2⟩

/-- The place of a new record: behind every fixed record and directly behind one whose key is not larger, and
ahead of records with larger keys only (R59). -/
theorem Queue.place_split (q : Queue) (p : Bool) (r : Record) :
    ∃ ahead behind, q.records.drop (q.fixed p) = ahead ++ behind ∧
      q.place p r = q.records.take (q.fixed p) ++ ahead ++ r :: behind ∧
      (∀ x ∈ behind, r.key.lt x.key = true) ∧ ∀ x, ahead.getLast? = some x → r.key.lt x.key = false := by
  obtain ⟨pre, post, hsplit, hplace, hpre, hpost⟩ :=
    placeFromTail_split r (q.records.drop (q.fixed p)).reverse
  refine ⟨post.reverse, pre.reverse, ?_, ?_, fun x hx => hpre x (List.mem_reverse.1 hx), fun x hx => hpost x ?_⟩
  · rw [← List.reverse_append, ← hsplit, List.reverse_reverse]
  · simp [Queue.place, hplace]
  · rwa [List.getLast?_reverse] at hx

/-- Settles O34. -/
theorem recordsArePlacedByKey : Obligations.RecordsArePlacedByKey :=
  ⟨fun a b => ⟨a.lt_iff b, Key.lt_asymm, Key.eq_of_not_lt⟩, Queue.place_split⟩

/-! ### The moves of one queue and its group -/

/-- The queue of a group whose head is presented (R68). -/
def Queue.shown (q : Queue) (x : Group) : Queue :=
  { q with records := numberHead x.nextSeq q.records, highWater := q.highWaterAfter }

/-- The group after the head of its queue is presented (R68). -/
def Group.shows (x : Group) (q : Queue) : Group :=
  { x with
    nextSeq := nextSequence x.nextSeq
    presented := some x.nextSeq
    ageTimer := if q.quota.age = 0 then none else some q.quota.age.toNat
    ageMark := false }

theorem State.present_eq (s : State) (g : GroupNo) :
    s.present g = (s.setQueue g ((s.queues.get g).shown (s.groups.get g))).setGroup g
      ((s.groups.get g).shows (s.queues.get g)) := rfl

/-- The group with nothing presented and its age timer stopped (R64, R65). -/
def Group.cleared (x : Group) : Group := { x with presented := none, ageTimer := none, ageMark := false }

/-- The place of the first undelivered record (R63). -/
def Group.candidate (x : Group) : Nat := if x.presented.isSome then 1 else 0

/-- The queue after the candidate `c` at place i has given way to a new record (R63). -/
def Queue.replaced (q : Queue) (p : Bool) (i : Nat) (c r : Record) : Queue :=
  { (q.without i).enter p r with records := raiseGap i (c.gap.toNat + 1) ((q.without i).enter p r).records }

/-- What one move of the pool makes of a queue and its group. `more` allows an admission and a quota write,
which the accounting of the pool has to allow. -/
inductive GroupMove (more : Prop) (q : Queue) (x : Group) : Queue → Group → Prop
  | same : GroupMove more q x q x
  | enter (hm : more) (r) (h : q.records ≠ [] ∨ x.deliver = false) : GroupMove more q x (q.enter x.presented.isSome r) x
  | enterShown (hm : more) (r) (h : q.records = []) : GroupMove more q x
      ((q.enter x.presented.isSome r).shown x) (x.shows (q.enter x.presented.isSome r))
  | loss (n) : GroupMove more q x { q with pendingLoss := n } x
  | raise (n) : GroupMove more q x { q with records := raiseGap x.candidate n q.records } x
  | replace (c r) (h : q.records[x.candidate]? = some c) :
      GroupMove more q x (q.replaced x.presented.isSome x.candidate c r) x
  | settings (t m b) : GroupMove more q x q { x with ageTimer := t, ageMark := m, irqEnable := b }
  | free (w) (h : x.presented = some w) (hd : q.records.tail = [] ∨ x.deliver = false) :
      GroupMove more q x q.freeHead x.cleared
  | freeShown (w) (h : x.presented = some w) (hr : q.records.tail ≠ []) :
      GroupMove more q x (q.freeHead.shown x.cleared) (x.cleared.shows q.freeHead)
  | flush : GroupMove more q x { q with records := [], runStart := 0, highWater := none, pendingLoss := 0 } x.cleared
  | deliver (on) (h : on = true → x.presented.isSome = true ∨ q.records = []) :
      GroupMove more q x q { x with deliver := on }
  | deliverShown (h : q.records ≠ []) :
      GroupMove more q x (q.shown { x with deliver := true }) (Group.shows { x with deliver := true } q)
  | quota (hm : more) (qt) : GroupMove more q x { q with quota := qt } x

/-- Every queue with its group makes a move of its own. -/
def GroupMoves (more : Prop) (s t : State) : Prop :=
  ∀ g, GroupMove more (s.queues.get g) (s.groups.get g) (t.queues.get g) (t.groups.get g)

/-- A move of one queue and its group, and of no other. -/
theorem GroupMoves.one {more : Prop} {s t : State} {g : GroupNo} {q : Queue} {x : Group}
    (hq : t.queues = s.queues.set g q) (hx : t.groups = s.groups.set g x)
    (h : GroupMove more (s.queues.get g) (s.groups.get g) q x) : GroupMoves more s t := by
  intro k
  rw [hq, hx, Bank.get_set, Bank.get_set]
  split
  · next hk => rw [hk]; exact h
  · exact .same

theorem GroupMoves.queue {more : Prop} {s t : State} {g : GroupNo} {q : Queue}
    (hq : t.queues = s.queues.set g q) (hx : t.groups = s.groups)
    (h : GroupMove more (s.queues.get g) (s.groups.get g) q (s.groups.get g)) : GroupMoves more s t :=
  .one hq (hx.trans (Bank.set_get _ _).symm) h

theorem groupMoves_enterRecord (s : State) (g : GroupNo) (r : Record) : GroupMoves True s (s.enterRecord g r) := by
  unfold State.enterRecord State.admissionNotice
  simp only
  split
  · next h =>
    have hnil : (s.queues.get g).records = [] := List.isEmpty_iff.1 (Bool.and_eq_true_iff.1 h).1
    refine .one (by simp [State.present_eq]) (by simp [State.present_eq]) (.enterShown trivial r hnil)
  · next h =>
    refine .queue rfl rfl (.enter trivial r ?_)
    simpa [-not_and, Decidable.not_and_iff_or_not] using h

theorem groupMoves_dropNew {more : Prop} (s : State) (g : GroupNo) : GroupMoves more s (s.dropNew g) := .queue rfl rfl (.loss _)

/-! The three outcomes of a failing claim under DROP_OLDEST (R63). -/

theorem State.dropOldest_none {s : State} {g : GroupNo} {r : Record}
    (h : (s.queues.get g).records[(s.groups.get g).candidate]? = none) : s.dropOldest g r = s.dropNew g := by
  unfold Group.candidate at h
  simp only [State.dropOldest, h]

theorem State.dropOldest_raise {s : State} {g : GroupNo} {r c : Record}
    (h : (s.queues.get g).records[(s.groups.get g).candidate]? = some c)
    (hc : (s.queues.get g).runStart ≤ (s.groups.get g).candidate ∧ r.key.lt c.key = true) :
    s.dropOldest g r = (s.setQueue g { s.queues.get g with
      records := raiseGap (s.groups.get g).candidate 1 (s.queues.get g).records }).setFlag .loss := by
  unfold Group.candidate at *
  simp only [State.dropOldest, h, hc, decide_true, Bool.and_self, if_true]

theorem State.dropOldest_replace {s : State} {g : GroupNo} {r c : Record}
    (h : (s.queues.get g).records[(s.groups.get g).candidate]? = some c)
    (hc : ¬((s.queues.get g).runStart ≤ (s.groups.get g).candidate ∧ r.key.lt c.key = true)) :
    s.dropOldest g r = (s.setQueue g ((s.queues.get g).replaced (s.groups.get g).presented.isSome
      (s.groups.get g).candidate c r)).setFlag .loss := by
  unfold Group.candidate Queue.replaced at *
  simp only [State.dropOldest, h, Bool.and_eq_true, decide_eq_true_eq, hc, if_false]

theorem groupMoves_dropOldest {more : Prop} (s : State) (g : GroupNo) (r : Record) : GroupMoves more s (s.dropOldest g r) := by
  cases h : (s.queues.get g).records[(s.groups.get g).candidate]? with
  | none =>
    rw [State.dropOldest_none h]
    exact groupMoves_dropNew s g
  | some c =>
    by_cases hc : (s.queues.get g).runStart ≤ (s.groups.get g).candidate ∧ r.key.lt c.key = true
    · rw [State.dropOldest_raise h hc]
      exact .queue rfl rfl (.raise 1)
    · rw [State.dropOldest_replace h hc]
      exact .queue rfl rfl (.replace c r h)

theorem groupMoves_takeRecord (s : State) (g : GroupNo) (r : Record) : GroupMoves True s (s.takeRecord g r) := by
  unfold State.takeRecord
  split
  · exact groupMoves_enterRecord s g r
  · split
    · exact groupMoves_dropNew s g
    · exact groupMoves_dropOldest s g r

theorem groupMoves_freePresented {more : Prop} {s : State} {g : GroupNo} {w : Word} (h : (s.groups.get g).presented = some w) :
    GroupMoves more s (s.freePresented g) := by
  unfold State.freePresented
  simp only
  split
  · next hd =>
    refine .one (by simp [State.present_eq]; rfl) (by simp [State.present_eq]; rfl) (.freeShown w h ?_)
    simpa [Queue.freeHead] using (Bool.and_eq_true_iff.1 hd).1
  · next hd =>
    refine .one rfl rfl (.free w h ?_)
    simpa [-not_and, Decidable.not_and_iff_or_not, Queue.freeHead] using hd

theorem groupMoves_flushGroup {more : Prop} (s : State) (g : GroupNo) : GroupMoves more s (s.flushGroup g) := by
  unfold State.flushGroup
  split
  · exact fun _ => .same
  · exact .one rfl rfl .flush

theorem State.deliveryState_waiting (s : State) (g : GroupNo) :
    s.deliveryState g = .waiting ↔ (s.groups.get g).presented = none ∧ (s.queues.get g).records ≠ [] := by
  unfold State.deliveryState
  cases (s.groups.get g).presented <;> cases (s.queues.get g).records <;> simp

theorem groupMoves_setDeliver {more : Prop} (s : State) (g : GroupNo) (on : Bool) : GroupMoves more s (s.setDeliver g on) := by
  unfold State.setDeliver
  simp only
  split
  · exact fun _ => .same
  · split
    · next h =>
      obtain ⟨rfl, hw⟩ := Bool.and_eq_true_iff.1 h
      have hw := ((s.deliveryState_waiting g).1 (beq_iff_eq.1 hw)).2
      exact .one (by simp [State.present_eq]) (by simp [State.present_eq]) (.deliverShown hw)
    · next h =>
      refine .one (Bank.set_get _ _).symm rfl (.deliver on fun hon => ?_)
      have hw : ¬ s.deliveryState g = .waiting := fun hw => h (by simp [hon, hw])
      rw [State.deliveryState_waiting] at hw
      cases hp : (s.groups.get g).presented with
      | some w => exact Or.inl rfl
      | none => exact Or.inr (by simpa [hp] using hw)

theorem PoolMove.groups {more : Prop} {s t : State} (h : PoolMove more s t) : GroupMoves True s t := by
  cases h with
  | claim =>
    unfold State.takeClaim
    split
    · exact fun _ => .same
    · next cs _ => exact groupMoves_takeRecord { s with claims := cs } _ _
  | age g => exact .one (Bank.set_get _ _).symm rfl (.settings none true _)
  | free _ g w h => exact groupMoves_freePresented h
  | flush _ g => exact groupMoves_flushGroup s g
  | deliver _ g on => exact groupMoves_setDeliver s g on
  | irq _ w =>
    intro g
    simp only [Bank.get_mapIdx]
    exact .settings _ _ _
  | quota _ g q _ => exact .queue rfl rfl (.quota trivial q)

/-! ### A rule of every queue and its group -/

/-- What the run notice makes of a queue (R58). -/
def Queue.noticed (q : Queue) : Queue := { q with runStart := q.count, highWater := none }

theorem State.runNotice_get (s : State) (g : GroupNo) : s.runNotice.queues.get g = (s.queues.get g).noticed := by
  unfold State.runNotice
  rw [Bank.get_map]
  rfl

/-- TICK leaves of a queue what the run notice leaves, where the tick steps, and of a group all but its age
timer. -/
theorem blockTick_queue_group (s : State) (samples : BitVec 64) (step : Option Time) (v : Time) (g : GroupNo) :
    (s.blockTick samples step v).queues.get g =
        (if step.isSome then (s.queues.get g).noticed else s.queues.get g) ∧
      (s.blockTick samples step v).groups.get g =
        { s.groups.get g with ageTimer := (s.groups.get g).ageTimer.map (· - 1) } := by
  cases step with
  | none => exact ⟨rfl, by rw [blockTick_none]; simp only [State.countAges, Bank.get_map]; rfl⟩
  | some a =>
    obtain ⟨_, _, _, _, e⟩ := stepEntries_frame (s.tickLines samples (some a)).countSlots.countAges.runNotice v
    simp only [State.blockTick]
    rw [e]
    exact ⟨State.runNotice_get _ g, by simp only [State.runNotice, State.countAges, Bank.get_map]; rfl⟩

theorem makeTick_queue_group (s : State) (samples : BitVec 64) (sync first : Bool) (g : GroupNo) :
    ((s.makeTick samples sync first).queues.get g = s.queues.get g ∨
      (s.makeTick samples sync first).queues.get g = (s.queues.get g).noticed) ∧
    (s.makeTick samples sync first).groups.get g =
      { s.groups.get g with ageTimer := (s.groups.get g).ageTimer.map (· - 1) } := by
  obtain ⟨hq, hx⟩ := blockTick_queue_group (s.timebaseTick sync first) samples
    (s.slewAdjust.tb.tick sync first).step (s.slewAdjust.tb.tick sync first).before g
  obtain ⟨_, _, _, _, e⟩ := timebaseTick_frame s sync first
  rw [makeTick_eq, hq, hx, e]
  refine ⟨?_, rfl⟩
  split
  · exact Or.inr rfl
  · exact Or.inl rfl

theorem reset_queue_group (g : GroupNo) :
    State.reset.queues.get g = { quota := Quota.default g } ∧ State.reset.groups.get g = {} := by
  simp [State.reset, Queue.resetBank]

/-- A rule of a queue and its group that the moves of the pool, the run notice and the counting of a tick keep,
and that a reset meets, is kept by every move. -/
theorem Move.keeps_groups {P : Queue → Group → Prop}
    (hmove : ∀ q x q' x', GroupMove True q x q' x' → P q x → P q' x')
    (hnotice : ∀ q x, P q x → P q.noticed x) (hreset : ∀ g, P { quota := Quota.default g } {})
    {more : Prop} {s t : State} (h : Move more s t) (hs : ∀ g, P (s.queues.get g) (s.groups.get g)) :
    ∀ g, P (t.queues.get g) (t.groups.get g) := by
  cases h with
  | pool h => exact fun g => hmove _ _ _ _ (h.groups g) (hs g)
  | reflex h => exact h.keeps (P := fun t => ∀ g, P (t.queues.get g) (t.groups.get g)) fun _ _ _ _ => hs
  | schedule h => exact h.keeps (P := fun t => ∀ g, P (t.queues.get g) (t.groups.get g)) fun _ _ _ _ => hs
  | timebase h => exact h.keeps (P := fun t => ∀ g, P (t.queues.get g) (t.groups.get g)) fun _ => hs
  | input h => exact h.keeps (P := fun t => ∀ g, P (t.queues.get g) (t.groups.get g)) fun _ => hs
  | output h => exact h.keeps (P := fun t => ∀ g, P (t.queues.get g) (t.groups.get g)) fun _ _ => hs
  | part h =>
    have hreset' (g : GroupNo) : P (State.reset.queues.get g) (State.reset.groups.get g) := by
      rw [(reset_queue_group g).1, (reset_queue_group g).2]
      exact hreset g
    cases h with
    | preset _ _ _ => exact fun g => by rw [State.runNotice_get]; exact hnotice _ _ (hs g)
    | run _ _ => exact hs
    | halt _ =>
      exact (reflexOnly_halt s).keeps (P := fun t => ∀ g, P (t.queues.get g) (t.groups.get g)) fun _ _ _ _ => hs
    | softReset _ => exact hreset'
    | deviceReset _ _ => exact hreset'
  | offer => exact hs
  | marks => exact hs
  | window => exact hs

/-- Such a rule is kept by every step. -/
theorem step_keeps_groups {P : Queue → Group → Prop}
    (hmove : ∀ q x q' x', GroupMove True q x q' x' → P q x → P q' x')
    (hnotice : ∀ q x, P q x → P q.noticed x) (hreset : ∀ g, P { quota := Quota.default g } {})
    {s t : State} (hs : ∀ g, P (s.queues.get g) (s.groups.get g)) (h : step s = .next t) :
    ∀ g, P (t.queues.get g) (t.groups.get g) := by
  refine step_keeps (P := fun s => ∀ g, P (s.queues.get g) (s.groups.get g)) (fun _ _ hs => hs)
    (fun _ _ hm hs => hm.keeps_groups hmove hnotice hreset hs) (fun _ _ _ _ _ _ hs => hs)
    (fun s samples sync first _ _ hc g => ?_) hs h
  obtain ⟨hq, hx⟩ := makeTick_queue_group s.completeTick samples sync first g
  rw [hx]
  have hage := hmove _ _ _ _ (.settings ((s.completeTick.groups.get g).ageTimer.map (· - 1))
    (s.completeTick.groups.get g).ageMark (s.completeTick.groups.get g).irqEnable) (hc g)
  rcases hq with e | e <;> rw [e]
  · exact hage
  · exact hnotice _ _ hage

/-! ### The order of the undelivered records (R58, R59) -/

/-- The undelivered records of the current run stand in order. -/
def RunOrdered (q : Queue) (x : Group) : Prop :=
  List.IsChain Record.inOrder (q.records.drop (q.fixed x.presented.isSome))

theorem raiseGap_keys (i n : Nat) (rs : List Record) : (raiseGap i n rs).map Record.key = rs.map Record.key := by
  refine List.ext_getElem? fun k => ?_
  rw [List.getElem?_map, List.getElem?_map, raiseGap, List.getElem?_modify]
  cases rs[k]? with
  | none => rfl
  | some r =>
    simp only [Option.map_some]
    split <;> rfl

theorem numberHead_keys (w : Word) (rs : List Record) : (numberHead w rs).map Record.key = rs.map Record.key := by
  cases rs <;> rfl

/-- The order of records rests on their keys. -/
theorem isChain_inOrder_of_keys {rs rs' : List Record} (h : rs'.map Record.key = rs.map Record.key)
    (hc : List.IsChain Record.inOrder rs) : List.IsChain Record.inOrder rs' := by
  have hkeys (rs : List Record) : List.IsChain Record.inOrder rs ↔
      List.IsChain (fun a b : Key => b.lt a = false) (rs.map Record.key) := by
    rw [List.isChain_map]
    rfl
  rw [hkeys, h, ← hkeys]
  exact hc

theorem RunOrdered.of_keys {q q' : Queue} {x x' : Group} (h : RunOrdered q x)
    (hk : q'.records.map Record.key = q.records.map Record.key) (hf : q.fixed x.presented.isSome ≤
      q'.fixed x'.presented.isSome) : RunOrdered q' x' := by
  refine isChain_inOrder_of_keys (rs := q.records.drop (q'.fixed x'.presented.isSome)) ?_ ?_
  · rw [List.map_drop, List.map_drop, hk]
  · obtain ⟨k, hk⟩ := Nat.exists_eq_add_of_le hf
    rw [hk, ← List.drop_drop]
    exact List.IsChain.drop h k

/-- A record placed among records in order leaves them in order (R59). -/
theorem Queue.isChain_place (q : Queue) (p : Bool) (r : Record)
    (h : List.IsChain Record.inOrder (q.records.drop (q.fixed p))) :
    List.IsChain Record.inOrder ((q.place p r).drop (q.fixed p)) := by
  obtain ⟨ahead, behind, hsplit, hplace, hbehind, hahead⟩ := q.place_split p r
  rw [hsplit] at h
  have hchain : List.IsChain Record.inOrder (ahead ++ r :: behind) := by
    obtain ⟨h1, h2, -⟩ := List.isChain_append.1 h
    refine List.isChain_append.2 ⟨h1, List.isChain_cons.2 ⟨fun y hy => ?_, h2⟩, fun y hy z hz => ?_⟩
    · exact Key.lt_asymm (hbehind y (List.mem_of_mem_head? hy))
    · obtain rfl : r = z := by simpa using hz
      exact hahead y hy
  rw [hplace, List.append_assoc, List.drop_append, List.drop_eq_nil_of_le (List.length_take_le _ _),
    List.nil_append]
  exact hchain.drop _

theorem RunOrdered.enter {q : Queue} {x : Group} (h : RunOrdered q x) (r : Record) :
    RunOrdered (q.enter x.presented.isSome r) x :=
  q.isChain_place x.presented.isSome (q.asEntered r) h

/-- Without its candidate a queue holds its later undelivered records, behind the same fixed ones. -/
theorem RunOrdered.without {q : Queue} {x : Group} (h : RunOrdered q x) : RunOrdered (q.without x.candidate) x := by
  have hdrop : (q.without x.candidate).records.drop ((q.without x.candidate).fixed x.presented.isSome) =
      q.records.drop (max q.runStart (x.candidate + 1)) := by
    have hfixed : (q.without x.candidate).fixed x.presented.isSome =
        x.candidate + (max q.runStart (x.candidate + 1) - (x.candidate + 1)) := by
      simp only [Queue.without, Queue.fixed, Group.candidate]
      split <;> split <;> omega
    rw [hfixed, ← List.drop_drop]
    have herase : (q.without x.candidate).records.drop x.candidate = q.records.drop (x.candidate + 1) := by
      simp only [Queue.without, List.eraseIdx_eq_take_drop_succ, List.drop_append]
      rw [List.drop_eq_nil_of_le (List.length_take_le _ _), List.nil_append, List.drop_drop, List.length_take]
      by_cases hlen : x.candidate ≤ q.records.length
      · congr 1; omega
      · rw [List.drop_eq_nil_of_le (by omega), List.drop_eq_nil_of_le (by omega)]
    rw [herase, List.drop_drop]
    congr 1
    omega
  have hle : q.fixed x.presented.isSome ≤ max q.runStart (x.candidate + 1) := by
    simp only [Queue.fixed, Group.candidate]
    split <;> omega
  obtain ⟨k, hk⟩ := Nat.exists_eq_add_of_le hle
  unfold RunOrdered
  rw [hdrop, hk, ← List.drop_drop]
  exact List.IsChain.drop h k

theorem Queue.fixed_le (q : Queue) (p p' : Bool) (h : p = true → p' = true) : q.fixed p ≤ q.fixed p' := by
  unfold Queue.fixed
  cases p
  · simp
  · simp [h rfl]

theorem RunOrdered.shown {q : Queue} {x : Group} (h : RunOrdered q x) : RunOrdered (q.shown x) (x.shows q) :=
  h.of_keys (numberHead_keys _ _) (Queue.fixed_le _ _ _ fun _ => rfl)

theorem RunOrdered.free {q : Queue} {x : Group} {w : Word} (h : RunOrdered q x) (hp : x.presented = some w) :
    RunOrdered q.freeHead x.cleared := by
  have hdrop : q.freeHead.records.drop (q.freeHead.fixed x.cleared.presented.isSome) =
      q.records.drop (q.fixed x.presented.isSome) := by
    simp only [Queue.freeHead, Queue.fixed, Group.cleared, hp, ← List.drop_one, List.drop_drop]
    congr 1
    simp
    omega
  unfold RunOrdered
  rw [hdrop]
  exact h

theorem RunOrdered.move {q q' : Queue} {x x' : Group} (h : GroupMove True q x q' x') (hq : RunOrdered q x) :
    RunOrdered q' x' := by
  cases h with
  | same => exact hq
  | enter _ r _ => exact hq.enter r
  | enterShown _ r _ => exact (hq.enter r).shown
  | loss n => exact hq
  | raise n => exact hq.of_keys (raiseGap_keys _ _ _) (Nat.le_refl _)
  | replace c r _ => exact (hq.without.enter r).of_keys (raiseGap_keys _ _ _) (Nat.le_refl _)
  | settings t m b => exact hq
  | free w h _ => exact hq.free h
  | freeShown w h _ => exact (hq.free h).shown
  | flush => exact List.isChain_nil
  | deliver on _ => exact hq
  | deliverShown _ => exact RunOrdered.shown (x := { x with deliver := true }) hq
  | quota _ qt => exact hq

theorem RunOrdered.noticed (q : Queue) (x : Group) : RunOrdered q.noticed x := by
  have hnil : q.noticed.records.drop (q.noticed.fixed x.presented.isSome) = [] :=
    List.drop_eq_nil_of_le (Nat.le_max_left _ _)
  unfold RunOrdered
  rw [hnil]
  exact List.isChain_nil

theorem queuesOrdered_reset (g : GroupNo) : RunOrdered { quota := Quota.default g } {} := List.isChain_nil

end Sys2Proof.Machine
end

section
/-!
PROOFS. Sound groups (R67 to R69) and the accounting of the pool (R51, R54) under the moves of the pool.
-/
namespace Sys2Proof.Machine

/-! ### Sound groups (R67 to R69) -/

theorem nextSequence_ne_zero (w : Word) : nextSequence w ≠ 0 := by
  unfold nextSequence
  split
  · decide
  · bv_omega

theorem Queue.count_enter (q : Queue) (p : Bool) (r : Record) : (q.enter p r).count = q.count + 1 :=
  q.place_length p _

theorem raiseGap_length (i n : Nat) (rs : List Record) : (raiseGap i n rs).length = rs.length :=
  List.length_modify ..

theorem numberHead_length (w : Word) (rs : List Record) : (numberHead w rs).length = rs.length := by
  cases rs <;> rfl

theorem Queue.count_without {q : Queue} {i : Nat} (h : i < q.count) : (q.without i).count + 1 = q.count := by
  have := List.length_eraseIdx_add_one h
  simpa [Queue.without, Queue.count] using this

theorem Queue.count_replaced {q : Queue} {p : Bool} {i : Nat} {c r : Record} (h : i < q.count) :
    (q.replaced p i c r).count = q.count := by
  have hr : (q.replaced p i c r).count = ((q.without i).enter p r).count := raiseGap_length _ _ _
  rw [hr, Queue.count_enter, Queue.count_without h]

/-- A record placed behind the presented one leaves it at the head (R59). -/
theorem Queue.place_head {q : Queue} {r₀ : Record} {rs : List Record} (h : q.records = r₀ :: rs) (r : Record) :
    ∃ rs', q.place true r = r₀ :: rs' := by
  obtain ⟨k, hk⟩ : ∃ k, q.fixed true = k + 1 := ⟨q.fixed true - 1, by unfold Queue.fixed; simp only [if_true]; omega⟩
  exact ⟨_, by unfold Queue.place; rw [hk, h, List.take_succ_cons, List.cons_append]⟩

theorem numberHead_cons {w : Word} {rs : List Record} (h : rs ≠ []) :
    ∃ r rs', numberHead w rs = r :: rs' ∧ r.seq = w := by
  cases rs with
  | nil => exact absurd rfl h
  | cons r rs => exact ⟨_, _, rfl, rfl⟩

/-- A group whose head has just been presented is sound (R67, R68). -/
theorem GroupSafe.shown {q : Queue} {x : Group} (hr : q.records ≠ []) (hn : x.nextSeq ≠ 0)
    (hle : q.runStart ≤ q.count) : GroupSafe (q.shown x) (x.shows q) := by
  refine ⟨fun w h => ?_, fun w h => ?_, fun _ _ => rfl, nextSequence_ne_zero _, ?_⟩
  · cases h
    exact numberHead_cons hr
  · cases h
    exact hn
  · unfold Queue.shown Queue.count
    rw [numberHead_length]
    exact hle

theorem GroupSafe.enter {q : Queue} {x : Group} (h : GroupSafe q x) (r : Record)
    (hd : q.records ≠ [] ∨ x.deliver = false) : GroupSafe (q.enter x.presented.isSome r) x := by
  refine ⟨fun w hw => ?_, h.presented_pos, fun _ hon => ?_, h.next_pos, ?_⟩
  · obtain ⟨r₀, rs, hrs, hseq⟩ := h.presented_head w hw
    obtain ⟨rs', hrs'⟩ := q.place_head hrs (q.asEntered r)
    exact ⟨r₀, rs', by simpa [Queue.enter, hw] using hrs', hseq⟩
  · exact hd.elim (fun hr => h.delivered hr hon) fun hoff => absurd (hoff.symm.trans hon) nofun
  · rw [Queue.count_enter]
    exact Nat.le_succ_of_le h.runStart_le

theorem GroupSafe.cleared {q : Queue} {x : Group} (hn : x.nextSeq ≠ 0) (hle : q.runStart ≤ q.count)
    (hd : q.records = [] ∨ x.deliver = false) : GroupSafe q x.cleared :=
  ⟨nofun, nofun, fun hr hon => hd.elim (fun h => absurd h hr) fun hoff => absurd (hoff.symm.trans hon) nofun, hn, hle⟩

theorem GroupSafe.freeHead_le {q : Queue} {x : Group} (h : GroupSafe q x) : q.freeHead.runStart ≤ q.freeHead.count := by
  have := h.runStart_le
  simp only [Queue.freeHead, Queue.count, List.length_tail] at *
  omega

theorem GroupSafe.raise {q : Queue} {x : Group} (h : GroupSafe q x) (n : Nat) :
    GroupSafe { q with records := raiseGap x.candidate n q.records } x := by
  have hlen := raiseGap_length x.candidate n q.records
  refine ⟨fun w hw => ?_, h.presented_pos, fun hr hon => h.delivered (fun hnil => ?_) hon, h.next_pos, ?_⟩
  · obtain ⟨r₀, rs, hrs, hseq⟩ := h.presented_head w hw
    exact ⟨r₀, _, by simp [raiseGap, Group.candidate, hw, hrs]; rfl, hseq⟩
  · exact hr (List.length_eq_zero_iff.1 (hlen.trans (List.length_eq_zero_iff.2 hnil)))
  · exact h.runStart_le.trans_eq hlen.symm

theorem GroupSafe.without {q : Queue} {x : Group} (h : GroupSafe q x) {c : Record}
    (hc : q.records[x.candidate]? = some c) : GroupSafe (q.without x.candidate) x := by
  have hlt : x.candidate < q.count := (List.getElem?_eq_some_iff.1 hc).1
  have hcount := Queue.count_without hlt
  refine ⟨fun w hw => ?_, h.presented_pos, fun hr hon => h.delivered (fun hnil => ?_) hon, h.next_pos, ?_⟩
  · obtain ⟨r₀, rs, hrs, hseq⟩ := h.presented_head w hw
    exact ⟨r₀, _, by simp [Queue.without, Group.candidate, hw, hrs]; rfl, hseq⟩
  · exact absurd (hnil ▸ hc) (by simp)
  · have hle := h.runStart_le
    have hrun : (q.without x.candidate).runStart =
      if x.candidate < q.runStart then q.runStart - 1 else q.runStart := rfl
    rw [hrun]
    split <;> omega

theorem GroupSafe.move {q q' : Queue} {x x' : Group} {more : Prop} (h : GroupMove more q x q' x') (hs : GroupSafe q x) :
    GroupSafe q' x' := by
  cases h with
  | same => exact hs
  | enter _ r hd => exact hs.enter r hd
  | enterShown _ r hnil =>
    refine GroupSafe.shown (fun h => ?_) hs.next_pos ?_
    · have := congrArg List.length h
      exact absurd ((Queue.count_enter q _ r).symm.trans this) (Nat.succ_ne_zero _)
    · rw [Queue.count_enter]
      exact Nat.le_succ_of_le hs.runStart_le
  | loss n => exact ⟨hs.1, hs.2, hs.3, hs.4, hs.5⟩
  | raise n => exact hs.raise n
  | replace c r hc =>
    refine GroupSafe.raise (q := (q.without x.candidate).enter x.presented.isSome r)
      ((hs.without hc).enter r ?_) (c.gap.toNat + 1)
    cases hon : x.deliver with
    | false => exact Or.inr rfl
    | true =>
      have hshown := hs.delivered (fun hnil => by simp [hnil] at hc) hon
      obtain ⟨w, hw⟩ := Option.isSome_iff_exists.1 hshown
      obtain ⟨r₀, rs, hrs, -⟩ := (hs.without hc).presented_head w hw
      exact Or.inl (by rw [hrs]; exact List.cons_ne_nil _ _)
  | settings t m b => exact ⟨hs.1, hs.2, hs.3, hs.4, hs.5⟩
  | free w _ hd => exact GroupSafe.cleared hs.next_pos hs.freeHead_le hd
  | freeShown w _ hr => exact GroupSafe.shown hr hs.next_pos hs.freeHead_le
  | flush => exact GroupSafe.cleared hs.next_pos (Nat.zero_le _) (Or.inl rfl)
  | deliver on hon =>
    exact ⟨hs.1, hs.2, fun hr ho => (hon ho).elim id fun hnil => absurd hnil hr, hs.4, hs.5⟩
  | deliverShown hr => exact GroupSafe.shown hr hs.next_pos hs.runStart_le
  | quota _ qt => exact ⟨hs.1, hs.2, hs.3, hs.4, hs.5⟩

theorem groupSafe_reset (g : GroupNo) : GroupSafe { quota := Quota.default g } {} :=
  ⟨nofun, nofun, fun h => absurd rfl h, by decide, Nat.le_refl 0⟩

/-- Settles O58: every move of the pool keeps a group sound. -/
theorem stepKeepsTheDeliverySafe : Obligations.StepKeepsTheDeliverySafe := fun _ _ hs h =>
  step_keeps_groups (P := GroupSafe) (fun _ _ _ _ hm hs => hs.move hm)
    (fun _ _ hs => ⟨hs.1, hs.2, hs.3, hs.4, Nat.le_refl _⟩) groupSafe_reset hs h

/-! ### The accounting (R51, R54) -/

/-- A move that is no admission and no quota write makes no queue hold more, and changes no quota. -/
theorem GroupMove.count_le {q q' : Queue} {x x' : Group} (h : GroupMove False q x q' x') :
    q'.count ≤ q.count ∧ q'.quota = q.quota := by
  cases h with
  | raise n => exact ⟨(raiseGap_length _ _ _).le, rfl⟩
  | replace c r hc => exact ⟨(Queue.count_replaced (List.getElem?_eq_some_iff.1 hc).1).le, rfl⟩
  | free w _ _ => exact ⟨by simp [Queue.freeHead, Queue.count], rfl⟩
  | freeShown w _ _ => exact ⟨(numberHead_length _ _).trans_le (by simp [Queue.freeHead, Queue.count]), rfl⟩
  | flush => exact ⟨Nat.zero_le _, rfl⟩
  | deliverShown _ => exact ⟨(numberHead_length _ _).le, rfl⟩
  | same => exact ⟨Nat.le_refl _, rfl⟩
  | loss n => exact ⟨Nat.le_refl _, rfl⟩
  | settings t m b => exact ⟨Nat.le_refl _, rfl⟩
  | deliver on _ => exact ⟨Nat.le_refl _, rfl⟩
  | enter hm => exact hm.elim
  | enterShown hm => exact hm.elim
  | quota hm => exact hm.elim

theorem sumQueues_eq (qs : Bank Queue 9) (f : GroupNo → Queue → Nat) : sumQueues qs f = ∑ g, f g (qs.get g) :=
  (Fin.sum_univ_def _).symm

/-- The pool stays accounted for where no queue holds more and no quota changes. -/
theorem PoolSafe.of_le {s t : State} (hs : PoolSafe s)
    (h : ∀ g, (t.queues.get g).count ≤ (s.queues.get g).count ∧
      (t.queues.get g).quota = (s.queues.get g).quota) : PoolSafe t := by
  refine ⟨fun g => ?_, le_trans ?_ hs.reserves_kept⟩
  · rw [(h g).2]
    exact (h g).1.trans (hs.within_limit g)
  · rw [sumQueues_eq, sumQueues_eq]
    refine Finset.sum_le_sum fun g _ => ?_
    have := (h g).1
    simp only [Queue.unused, (h g).2]
    omega

/-- One queue of a sum, and the others. -/
theorem sumQueues_split (qs : Bank Queue 9) (f : GroupNo → Queue → Nat) (g : GroupNo) :
    sumQueues qs f = f g (qs.get g) + sumQueues qs fun h q => if h = g then 0 else f h q := by
  rw [sumQueues_eq, sumQueues_eq, ← Finset.add_sum_erase _ _ (Finset.mem_univ g),
    ← Finset.add_sum_erase Finset.univ (fun h => if h = g then 0 else f h (qs.get h)) (Finset.mem_univ g)]
  simp only [if_true, Nat.zero_add, Nat.add_right_inj]
  exact Finset.sum_congr rfl fun h hh => (if_neg (Finset.ne_of_mem_erase hh)).symm

theorem sumQueues_add (qs : Bank Queue 9) (f f' : GroupNo → Queue → Nat) :
    (sumQueues qs fun g q => f g q + f' g q) = sumQueues qs f + sumQueues qs f' := by
  simp only [sumQueues_eq, Finset.sum_add_distrib]

/-- An admitted record leaves the pool accounted for: its queue is below its limit, and below its reserve or
with a slot to spare (R54). -/
theorem PoolSafe.admitted {s t : State} {g : GroupNo} {q : Queue} (hs : PoolSafe s) (ha : s.admissible g = true)
    (hq : t.queues = s.queues.set g q) (hc : q.count = (s.queues.get g).count + 1)
    (hquota : q.quota = (s.queues.get g).quota) : PoolSafe t := by
  simp only [State.admissible, Bool.and_eq_true, Bool.or_eq_true, decide_eq_true_eq] at ha
  obtain ⟨hlimit, hroom⟩ := ha
  refine ⟨fun k => ?_, ?_⟩
  · rw [hq, Bank.get_set]
    split
    · rw [hc, hquota]
      exact hlimit
    · exact hs.within_limit k
  · have hsame (f : GroupNo → Queue → Nat) : (sumQueues t.queues fun h q => if h = g then 0 else f h q) =
        sumQueues s.queues fun h q => if h = g then 0 else f h q := by
      rw [sumQueues_eq, sumQueues_eq, hq]
      refine Finset.sum_congr rfl fun h _ => ?_
      split
      · rfl
      · next hne => rw [Bank.get_set_ne _ hne]
    have hkept := hs.reserves_kept
    rw [sumQueues_split _ _ g] at hkept ⊢
    rw [hsame, hq, Bank.get_set_eq]
    simp only [Queue.unused, hc, hquota] at hkept ⊢
    rcases hroom with hreserve | hspare
    · omega
    · have hcount := sumQueues_split s.queues (fun _ q => q.count) g
      have hadd : (sumQueues s.queues fun h q => if h = g then 0 else q.count + (q.quota.reserve.toNat - q.count)) =
          (sumQueues s.queues fun h q => if h = g then 0 else q.count) + s.unusedByOthers g := by
        rw [State.unusedByOthers, ← sumQueues_add]
        simp only [sumQueues_eq]
        refine Finset.sum_congr rfl fun h _ => ?_
        split <;> rfl
      simp only [State.freeSlots] at hspare
      omega

/-- A quota write that breaks no accounting keeps it (R53). -/
theorem PoolSafe.quota {s t : State} {g : GroupNo} {qt : Quota} (hs : PoolSafe s)
    (hq : t.queues = s.queues.set g { s.queues.get g with quota := qt }) (hb : t.quotaBreaks g = false) :
    PoolSafe t := by
  simp only [State.quotaBreaks, Bool.or_eq_false_iff, decide_eq_false_iff_not, not_lt] at hb
  obtain ⟨⟨-, hlimit⟩, hfree⟩ := hb
  refine ⟨fun k => ?_, ?_⟩
  · by_cases hk : k = g
    · rw [hk]
      exact hlimit
    · rw [hq, Bank.get_set_ne _ hk]
      exact hs.within_limit k
  · have hcount : (sumQueues t.queues fun _ q => q.count) = sumQueues s.queues fun _ q => q.count := by
      rw [sumQueues_eq, sumQueues_eq, hq]
      refine Finset.sum_congr rfl fun h _ => ?_
      rw [Bank.get_set]
      split
      · next hh => rw [hh]; rfl
      · rfl
    have hkept := hs.reserves_kept
    have hsplit (qs : Bank Queue 9) := sumQueues_add qs (fun _ q => q.count) fun _ q => q.unused
    rw [hsplit] at hkept ⊢
    simp only [State.freeSlots] at hfree
    omega

theorem PoolSafe.takeRecord {s : State} (hs : PoolSafe s) (g : GroupNo) (r : Record) :
    PoolSafe (s.takeRecord g r) := by
  unfold State.takeRecord
  split
  · next ha =>
    unfold State.enterRecord State.admissionNotice
    simp only
    split
    · refine hs.admitted ha (q := ((s.queues.get g).enter (s.groups.get g).presented.isSome r).shown (s.groups.get g))
        (by simp [State.present_eq]) ?_ rfl
      exact (numberHead_length _ _).trans (Queue.count_enter _ _ r)
    · exact hs.admitted ha (State.setQueue_queues ..) (Queue.count_enter _ _ r) rfl
  · split
    · exact hs.of_le fun k => (groupMoves_dropNew s g k).count_le
    · exact hs.of_le fun k => (groupMoves_dropOldest s g r k).count_le

theorem PoolSafe.poolMove {more : Prop} {s t : State} (h : PoolMove more s t) (hs : PoolSafe s) : PoolSafe t := by
  cases h with
  | claim =>
    unfold State.takeClaim
    split
    · exact hs
    · next cs _ => exact PoolSafe.takeRecord (s := { s with claims := cs }) ⟨hs.1, hs.2⟩ _ _
  | age g => exact ⟨hs.1, hs.2⟩
  | free _ g w h => exact hs.of_le fun k => (groupMoves_freePresented h k).count_le
  | flush _ g => exact hs.of_le fun k => (groupMoves_flushGroup s g k).count_le
  | deliver _ g on => exact hs.of_le fun k => (groupMoves_setDeliver s g on k).count_le
  | irq _ w => exact ⟨hs.1, hs.2⟩
  | quota _ g q hb => exact hs.quota rfl hb

/-- The default quotas lie in the pool (R51, R52). -/
theorem poolSafe_reset : PoolSafe State.reset :=
  ⟨fun _ => by rw [(reset_queue_group _).1]; exact Nat.zero_le _, by decide⟩

theorem PoolSafe.move {more : Prop} {s t : State} (h : Move more s t) (hs : PoolSafe s) : PoolSafe t := by
  cases h with
  | pool h => exact hs.poolMove h
  | reflex h => exact h.keeps fun _ _ _ _ => ⟨hs.1, hs.2⟩
  | schedule h => exact h.keeps fun _ _ _ _ => ⟨hs.1, hs.2⟩
  | timebase h => exact h.keeps fun _ => ⟨hs.1, hs.2⟩
  | input h => exact h.keeps fun _ => ⟨hs.1, hs.2⟩
  | output h => exact h.keeps fun _ _ => ⟨hs.1, hs.2⟩
  | part h =>
    cases h with
    | preset _ _ _ => exact hs.of_le fun g => by rw [State.runNotice_get]; exact ⟨Nat.le_refl _, rfl⟩
    | run _ _ => exact ⟨hs.1, hs.2⟩
    | halt _ => exact (reflexOnly_halt s).keeps fun _ _ _ _ => ⟨hs.1, hs.2⟩
    | softReset _ => exact ⟨poolSafe_reset.1, poolSafe_reset.2⟩
    | deviceReset _ _ => exact ⟨poolSafe_reset.1, poolSafe_reset.2⟩
  | offer => exact ⟨hs.1, hs.2⟩
  | marks => exact ⟨hs.1, hs.2⟩
  | window => exact ⟨hs.1, hs.2⟩

theorem PoolSafe.makeTick {s : State} (hs : PoolSafe s) (samples : BitVec 64) (sync first : Bool) :
    PoolSafe (s.makeTick samples sync first) := by
  refine hs.of_le fun g => ?_
  rcases (makeTick_queue_group s samples sync first g).1 with e | e
  · rw [e]; exact ⟨Nat.le_refl _, rfl⟩
  · rw [e]; exact ⟨Nat.le_refl _, rfl⟩

/-- Settles O56: an admission and a quota write keep the accounting by their tests, and nothing else makes a
queue hold more. -/
theorem stepKeepsThePoolAccounting : Obligations.StepKeepsThePoolAccounting := fun _ _ hs h =>
  step_keeps (P := PoolSafe) (fun _ _ hs => ⟨hs.1, hs.2⟩) (fun _ _ hm hs => hs.move hm)
    (fun _ _ _ _ _ _ hs => ⟨hs.1, hs.2⟩)
    (fun _ samples sync first _ _ hc => hc.makeTick samples sync first) hs h

end Sys2Proof.Machine
end

section
/-!
PROOFS. The waiting claims: what every move offers and takes of them. The order in which they are taken (R55)
and UNSYNC while the Timebase is STOPPED (R47) follow.
-/
namespace Sys2Proof.Machine

/-! ### Offers -/

/-- The claims `ds` are the claims `cs` with others put among them, one after another, that meet `P`. -/
abbrev Offers (P : Claim → Prop) : List Claim → List Claim → Prop :=
  Relation.ReflTransGen fun cs ds => ∃ c, P c ∧ ds = insertClaim c cs

variable {P : Claim → Prop}

theorem Offers.nothing {cs : List Claim} : Offers P cs cs := Relation.ReflTransGen.refl

theorem Offers.one {c : Claim} {cs : List Claim} (h : P c) : Offers P cs (insertClaim c cs) :=
  Relation.ReflTransGen.single ⟨c, h, rfl⟩

/-- Offers to claims that a change before them leaves. -/
theorem Offers.after {cs ds es : List Claim} (h : ds = cs) (ho : Offers P ds es) : Offers P cs es := h ▸ ho

theorem Offers.ordered {cs ds : List Claim} (h : Offers P cs ds)
    (hs : cs.Pairwise fun c d => c.source.rank ≤ d.source.rank) :
    ds.Pairwise fun c d => c.source.rank ≤ d.source.rank := by
  induction h with
  | refl => exact hs
  | tail _ h ih =>
    obtain ⟨c, -, rfl⟩ := h
    exact insertClaim_ordered c ih

theorem Offers.mem {cs ds : List Claim} (h : Offers P cs ds) : ∀ c ∈ ds, c ∈ cs ∨ P c := by
  induction h with
  | refl => exact fun c hc => Or.inl hc
  | tail _ h ih =>
    obtain ⟨d, hd, rfl⟩ := h
    intro c hc
    rcases mem_insertClaim.1 hc with rfl | hc
    · exact Or.inr hd
    · exact ih c hc

/-! ### What each unit offers -/

/-- A claim that carries UNSYNC. -/
def Claim.unsync (c : Claim) : Prop := c.record.flags.unsync = true

/-- A claim as state `s` may offer it: with UNSYNC where its Timebase is STOPPED (R47). -/
def State.MayOffer (s : State) (c : Claim) : Prop := s.tb.state = .stopped → c.unsync

theorem State.mayOffer_running {s : State} (h : s.tb.state ≠ .stopped) (c : Claim) : s.MayOffer c :=
  fun hs => absurd hs h

theorem State.reportReflex_offers {s : State} {i : SlotNo} {b : Bool} {r : Record} (h : P ⟨.reflex i, b, r⟩) :
    Offers P s.claims (s.reportReflex i b r).claims := by
  unfold State.reportReflex
  split
  · exact .one h
  · exact .nothing

theorem State.beginAssert_claims (s : State) (m : BitVec 32) : (s.beginAssert m).claims = s.claims := by
  obtain ⟨_, _, e⟩ := s.beginAssert_frame m
  rw [e]

theorem State.assertSlot_offers {s : State} {i : SlotNo}
    (h : P ⟨.reflex i, true, reflexOnRecord i (s.slots.get i) s.tickStamp⟩) :
    Offers P s.claims (s.assertSlot i).claims := by
  unfold State.assertSlot
  simp only
  exact Offers.after (State.beginAssert_claims (s.setSlot i _) _) (State.reportReflex_offers h)

theorem State.completePulse_offers {s : State} {i : SlotNo} {c : EndCause} {b : Bool} {st : Stamp}
    (h : P ⟨.reflex i, b, reflexOffRecord i (s.slots.get i) c st⟩) :
    Offers P s.claims (s.completePulse i c b st).claims :=
  State.reportReflex_offers (s := (s.setSlot i (s.slots.get i).complete).reevaluate) h

theorem State.disarmSlot_offers {s : State} {i : SlotNo} {c : EndCause}
    (h : P ⟨.reflex i, false, reflexOffRecord i (s.slots.get i) c s.eventStamp⟩) :
    Offers P s.claims (s.disarmSlot i c).claims := by
  unfold State.disarmSlot
  simp only
  split
  · exact State.reportReflex_offers (s := (s.setSlot i _).reevaluate) h
  · exact .nothing

theorem State.triggerSlot_offers (h : ∀ c, P c) (s : State) (i : SlotNo) (v : Bool) :
    Offers P s.claims (s.triggerSlot i v).claims := by
  unfold State.triggerSlot
  simp only
  split
  · exact .nothing
  · split
    · exact State.assertSlot_offers (s := s.setSlot i _) (h _)
    · exact .nothing
  · split <;> exact .nothing
  · split
    · exact .nothing
    · exact .nothing
    · unfold State.restartPulse
      simp only
      have hoff := State.reportReflex_offers (P := P) (s := s.setSlot i { s.slots.get i with edge := some v })
        (i := i) (b := true) (r := reflexOffRecord i (s.slots.get i) .retriggered s.tickStamp) (h _)
      split
      · exact hoff.trans (State.assertSlot_offers (h _))
      · exact hoff
  · exact .nothing

theorem State.eventStamp_mayOffer (s : State) (src : ClaimSource) (b : Bool) (r : Record)
    (h : r.flags.unsync = s.eventStamp.unsync) : s.MayOffer ⟨src, b, r⟩ := fun hs =>
  h.trans (State.eventStamp_unsync hs)

theorem ReflexMove.offers {more : Prop} {s t : State} (h : ReflexMove more s t) :
    Offers s.MayOffer s.claims t.claims := by
  cases h with
  | trigger i v hr => exact State.triggerSlot_offers (State.mayOffer_running hr) s i v
  | assert i hr _ => exact State.assertSlot_offers (State.mayOffer_running hr _)
  | complete i c b st _ hst => exact State.completePulse_offers hst
  | disarm _ i c => exact State.disarmSlot_offers (s.eventStamp_mayOffer _ _ _ rfl)
  | arm _ i _ _ => exact .nothing
  | configure _ i c _ => exact .nothing

theorem State.reportAction_offers {s : State} {e : Entry} {b : Bool} {d : Word} {st : Stamp}
    (h : P ⟨.schedule, b, actionRecord e d st⟩) : Offers P s.claims (s.reportAction e b d st).claims := by
  unfold State.reportAction
  split
  · exact .one h
  · exact .nothing

theorem State.reenter_claims (s : State) (e : Option Entry) : (s.reenter e).claims = s.claims := by
  cases e <;> rfl

theorem State.scheduleClaim_claims (s : State) (a : Action) (m : BitVec 32) :
    (s.scheduleClaim a m).claims = s.claims := by
  obtain ⟨_, _, e⟩ := s.scheduleClaim_frame a m
  rw [e]

theorem State.fireEntry_offers {s : State} {e : Entry} {late b : Bool} {st : Stamp}
    (h : ∀ d, P ⟨.schedule, b, actionRecord e d st⟩) : Offers P s.claims (s.fireEntry e late b st).claims := by
  unfold State.fireEntry
  simp only
  exact Offers.after ((State.reenter_claims _ _).trans (State.scheduleClaim_claims _ _ _))
    (State.reportAction_offers (h _))

theorem State.skipEntry_offers {s : State} {e : Entry} {st : Stamp}
    (h : ∀ d, P ⟨.schedule, true, actionRecord e d st⟩) : Offers P s.claims (s.skipEntry e st).claims := by
  unfold State.skipEntry
  simp only
  exact Offers.after (State.reenter_claims _ _) (State.reportAction_offers (h _))

theorem commitRecord_unsync (x : Schedule) (st : Stamp) : (commitRecord x st).flags.unsync = st.unsync := rfl

theorem State.finishCommit_offers {s : State} (h : P ⟨.schedule, false, commitRecord s.sched s.eventStamp⟩) :
    Offers P s.claims s.finishCommit.claims := by
  unfold State.finishCommit
  rw [State.setFlagIf_claims]
  exact .one h

theorem State.startApplying_offers (s : State) : Offers s.MayOffer s.claims s.startApplying.claims := by
  unfold State.startApplying
  simp only
  split
  · exact State.finishCommit_offers (P := s.MayOffer) (s := s.setSched { s.sched with
      commit := .applying, progress := 0, applied := 0, removed := 0, refused := 0, firstRefusal := none })
      (s.eventStamp_mayOffer _ _ _ (commitRecord_unsync _ _))
  · exact .nothing

theorem ScheduleMove.offers {more : Prop} {s t : State} (h : ScheduleMove more s t) :
    Offers s.MayOffer s.claims t.claims := by
  cases h with
  | fire a rest hr _ =>
    exact State.fireEntry_offers (s := s.setSched { s.sched with active := rest })
      fun _ => State.mayOffer_running hr _
  | start _ => exact s.startApplying_offers
  | finish _ => exact State.finishCommit_offers (s.eventStamp_mayOffer _ _ _ (commitRecord_unsync _ _))
  | late _ e _ _ =>
    exact State.fireEntry_offers (s := s.setSched { s.sched with nextOrder := s.sched.nextOrder + 1 })
      fun _ => s.eventStamp_mayOffer _ _ _ rfl
  | _ => exact .nothing

theorem State.halt_offers (s : State) : Offers s.MayOffer s.claims s.halt.claims := by
  have hall : Offers s.MayOffer s.claims s.halt.claims ∧ s.halt.tb = s.tb := by
    unfold State.halt
    refine forEach_keeps (P := fun t => Offers s.MayOffer s.claims t.claims ∧ t.tb = s.tb) (fun i t ht => ?_)
      (And.intro Offers.nothing rfl)
    refine ⟨ht.1.trans (State.disarmSlot_offers fun hs => ?_), ?_⟩
    · exact State.eventStamp_unsync (s := t) (by rw [ht.2]; exact hs)
    · obtain ⟨_, _, _, _, e⟩ := reflexOnly_disarmSlot t i .halted
      rw [e]
      exact ht.2
  exact hall.1

/-- What a move makes of the waiting claims: it offers some, takes the first, or clears them. -/
theorem Move.claims {more : Prop} {s t : State} (h : Move more s t) :
    Offers s.MayOffer s.claims t.claims ∨ t.claims = s.claims.tail ∨ t.claims = [] := by
  cases h with
  | pool h =>
    cases h with
    | claim => exact Or.inr (Or.inl s.takeClaim_claims)
    | free _ g _ _ => obtain ⟨_, _, e⟩ := s.freePresented_frame g; rw [e]; exact Or.inl .nothing
    | flush _ g => obtain ⟨_, _, e⟩ := s.flushGroup_frame g; rw [e]; exact Or.inl .nothing
    | deliver _ g b => obtain ⟨_, _, e⟩ := s.setDeliver_frame g b; rw [e]; exact Or.inl .nothing
    | _ => exact Or.inl .nothing
  | reflex h => exact Or.inl h.offers
  | schedule h => exact Or.inl h.offers
  | timebase h => exact Or.inl (h.keeps (P := fun t => Offers s.MayOffer s.claims t.claims) fun _ => .nothing)
  | input h => exact Or.inl (h.keeps (P := fun t => Offers s.MayOffer s.claims t.claims) fun _ => .nothing)
  | output h => exact Or.inl (h.keeps (P := fun t => Offers s.MayOffer s.claims t.claims) fun _ _ => .nothing)
  | part h =>
    cases h with
    | halt _ => exact Or.inl s.halt_offers
    | softReset _ => exact Or.inr (Or.inr rfl)
    | deviceReset _ _ => exact Or.inr (Or.inr rfl)
    | preset _ _ _ => exact Or.inl .nothing
    | run _ _ => exact Or.inl .nothing
  | offer src b r h => exact Or.inl (.one h)
  | marks => exact Or.inl .nothing
  | window => exact Or.inl .nothing

/-! ### The tick -/

theorem foldl_syncRecord_offers (h : ∀ c, P c) (es : List SyncEvent) (s : State) :
    Offers P s.claims
      (es.foldl (fun t e => t.offer .timebase true (syncRecord e t.tickStamp)) s).claims := by
  induction es generalizing s with
  | nil => exact .nothing
  | cons e es ih => exact (Offers.one (h _)).trans (ih (s.offer .timebase true (syncRecord e s.tickStamp)))

theorem State.addCause_offers (h : ∀ c, P c) (s : State) (c : Cause) (b : Bool) (st : Stamp) :
    Offers P s.claims (s.addCause c b st).claims := by
  unfold State.addCause
  simp only
  split
  · exact .nothing
  · exact .one (h _)

theorem State.timebaseEffect_offers (h : ∀ c, P c) (s : State) (x : TbEffect) :
    Offers P s.claims (s.timebaseEffect x).claims := by
  unfold State.timebaseEffect
  simp only
  have hev := foldl_syncRecord_offers h x.events (s.setTb x.tb)
  split
  · exact hev.trans (Offers.after (State.setFlagIf_claims _ _ _) (State.addCause_offers h _ _ _ _))
  · rw [State.setFlagIf_claims]
    exact hev

theorem State.takeAtStep_offers (h : ∀ c, P c) (v : Time) (s : State) (e : Entry) :
    Offers P s.claims (State.takeAtStep v s e).claims := by
  unfold State.takeAtStep
  split
  · exact State.fireEntry_offers fun _ => h _
  · split
    · exact State.fireEntry_offers fun _ => h _
    · exact State.skipEntry_offers fun _ => h _

theorem State.stepEntries_offers (h : ∀ c, P c) (s : State) (v : Time) :
    Offers P s.claims (s.stepEntries v).claims := by
  unfold State.stepEntries
  simp only
  have key : ∀ (l : List Active) (t : State),
      Offers P t.claims (l.foldl (fun t a => t.takeAtStep v a.entry) t).claims := by
    intro l
    induction l with
    | nil => exact fun _ => .nothing
    | cons a l ih => exact fun t => (State.takeAtStep_offers h v t a.entry).trans (ih _)
  exact key _ (s.setSched { s.sched with
    active := s.sched.active.filter fun a => !reached s.tb.counter a.entry.due })

theorem makeTick_offers (h : ∀ c, P c) (s : State) (samples : BitVec 64) (sync first : Bool) :
    Offers P s.claims (s.makeTick samples sync first).claims := by
  have htb : Offers P s.claims (s.timebaseTick sync first).claims := by
    have hadjust : s.slewAdjust.claims = s.claims := by
      rcases s.whenTickDue_cases s.tb.slewDue (fun t => t.setTb t.tb.adjust) with ⟨-, -, e⟩ | ⟨-, e⟩
      · exact congrArg State.claims (a₂ := s.setTb s.tb.adjust) e
      · exact congrArg State.claims (a₂ := s) e
    exact Offers.after hadjust (State.timebaseEffect_offers h _ _)
  rw [makeTick_eq]
  refine htb.trans ?_
  unfold State.blockTick
  simp only
  split
  · exact Offers.nothing
  · exact State.stepEntries_offers h ((State.tickLines _ _ _).countSlots.countAges.runNotice) _

/-! ### The order in which claims are taken (R55) -/

theorem ClaimsOrdered.move {more : Prop} {s t : State} (h : Move more s t) (hs : ClaimsOrdered s) :
    ClaimsOrdered t := by
  unfold ClaimsOrdered at *
  rcases h.claims with h | h | h
  · exact h.ordered hs
  · rw [h]; exact hs.tail
  · rw [h]; exact List.Pairwise.nil

/-- Settles O57: the records by the moves of every queue, the claims by what every move offers and takes. -/
theorem stepKeepsTheQueuesOrdered : Obligations.StepKeepsTheQueuesOrdered :=
  ⟨fun _ _ hs h => step_keeps_groups (P := RunOrdered) (fun _ _ _ _ hm hs => hs.move hm)
    (fun q x _ => RunOrdered.noticed q x) queuesOrdered_reset hs h,
  fun _ _ hs h => step_keeps (P := ClaimsOrdered) (fun _ _ hs => hs) (fun _ _ hm hs => hs.move hm)
    (fun _ _ _ _ _ _ hs => hs)
    (fun _ samples sync first _ _ hc =>
      (makeTick_offers (P := fun _ => True) (fun _ => trivial) _ samples sync first).ordered hc) hs h⟩

/-! ### UNSYNC while the Timebase is STOPPED (R47) -/

/-- The Timebase stays STOPPED under every move but START. -/
theorem Move.stopped {more : Prop} {s t : State} (h : Move more s t) (hs : s.tb.state = .stopped) :
    t.tb.state = .stopped := by
  cases h with
  | pool h => exact h.keeps (P := fun t => t.tb.state = .stopped) fun _ _ _ _ => hs
  | reflex h => exact h.keeps (P := fun t => t.tb.state = .stopped) fun _ _ _ _ => hs
  | schedule h => exact h.keeps (P := fun t => t.tb.state = .stopped) fun _ _ _ _ => hs
  | timebase h =>
    cases h with
    | expire hd => exact absurd ((Timebase.state_of_expiryDue hd).symm.trans hs) nofun
    | stop _ _ => exact (congrArg Timebase.state (if_pos hs)).trans hs
    | adjust _ hr => exact absurd hs hr
    | switches _ a b c => exact (s.tb.setSwitches_stopped a b c).2 hs
    | settings _ u hu => obtain ⟨⟨_, _, _, _, _, _, _, _, rfl⟩, -⟩ := hu; exact hs
  | input h => exact h.keeps (P := fun t => t.tb.state = .stopped) fun _ => hs
  | output h => exact h.keeps (P := fun t => t.tb.state = .stopped) fun _ _ => hs
  | part h =>
    cases h with
    | preset _ _ _ => exact hs
    | run _ hr => exact absurd hs hr
    | halt _ => exact (reflexOnly_halt s).keeps (P := fun t => t.tb.state = .stopped) fun _ _ _ _ => hs
    | softReset _ => exact hs
    | deviceReset _ _ => rfl
  | offer => exact hs
  | marks => exact hs
  | window => exact hs

theorem Moves.unsync {more : Prop} {s t : State} (h : Moves more s t) (hs : s.tb.state = .stopped) :
    ∀ c ∈ t.claims, c ∈ s.claims ∨ c.unsync := by
  refine (h.keeps (P := fun t => t.tb.state = .stopped ∧ ∀ c ∈ t.claims, c ∈ s.claims ∨ c.unsync)
    (fun u v hm ⟨hstop, hu⟩ => ⟨hm.stopped hstop, fun c hc => ?_⟩) ⟨hs, fun _ => Or.inl⟩).2
  rcases hm.claims with ho | ht | hn
  · rcases ho.mem c hc with hc | hc
    · exact hu c hc
    · exact Or.inr (hc hstop)
  · exact hu c (List.mem_of_mem_tail (ht ▸ hc))
  · rw [hn] at hc
    exact absurd hc List.not_mem_nil

/-- A record offered while the Timebase is STOPPED carries UNSYNC (R47). -/
theorem step_stopped_unsync {s t : State} (hs : s.tb.state = .stopped) (h : step s = .next t) :
    ∀ c ∈ t.claims, c ∈ s.claims ∨ c.unsync := by
  unfold step at h
  split at h
  · cases h
    exact fun _ => Or.inl
  · cases acts_of_exec h with
    | moves hm => exact hm.unsync hs
    | start hm _ _ a b c => exact hm.unsync hs
    | tick _ _ _ hr => exact absurd hs hr

end Sys2Proof.Machine
end

section
/-!
PROOFS. The lines that REFLEX owns keep the value of R93 under every move: a re-evaluation makes it so, and
what is not followed by one changes neither the slots that assert nor those lines.
-/
namespace Sys2Proof.Machine

/-! ### The value of R93 -/

theorem Slot.asserting_iff (x : Slot) : x.asserting = true ↔ x.state = .active ∨ x.state = .holding := by
  simp [Slot.asserting]

theorem State.assertedOn_iff_state (s : State) (n : OutNo) :
    s.assertedOn n = true ↔ ∃ i, ((s.slots.get i).state = .active ∨ (s.slots.get i).state = .holding) ∧
      (s.slots.get i).config.mask.getLsbD n.val = true := by
  simp only [State.assertedOn_iff, Slot.asserting_iff, covers]

/-- An output line that REFLEX owns has the value of R93, where `on` says that an asserting slot covers it. -/
def OutLine.Follows (o : OutLine) (on : Bool) : Prop :=
  o.owner = .reflex → o.claimed = if on then !o.safe else o.safe

theorem outputsSafe_iff (s : State) : OutputsSafe s ↔ ∀ n, (s.outputs.get n).Follows (s.assertedOn n) := by
  refine forall_congr' fun n => imp_congr_right fun _ => ?_
  rw [← State.assertedOn_iff_state]
  cases s.assertedOn n <;> cases (s.outputs.get n).claimed <;> cases (s.outputs.get n).safe <;> simp

/-- What an asserting slot covers, slot by slot. -/
def Slot.drives (x : Slot) : Option (BitVec 32) := if x.asserting then some x.config.mask else none

theorem State.assertedOn_of_drives {s t : State} (h : ∀ i, (t.slots.get i).drives = (s.slots.get i).drives)
    (n : OutNo) : t.assertedOn n = s.assertedOn n := by
  have key (x : Slot) : (x.asserting && covers x.config.mask n) = x.drives.any fun m => covers m n := by
    unfold Slot.drives
    cases x.asserting <;> rfl
  simp only [State.assertedOn, key, h]

/-- The rule is kept where the slots that assert cover what they did, and no line that REFLEX owns changed or
was given to it. -/
theorem OutputsSafe.of_same {s t : State} (hs : OutputsSafe s)
    (hx : ∀ i, (t.slots.get i).drives = (s.slots.get i).drives)
    (ho : ∀ n, (t.outputs.get n).owner = .reflex → t.outputs.get n = s.outputs.get n) : OutputsSafe t := by
  rw [outputsSafe_iff] at *
  intro n hn
  have hsame := ho n hn
  have hfollows := hs n (hsame ▸ hn)
  rw [State.assertedOn_of_drives hx, hsame]
  exact hfollows

/-- A re-evaluation gives every line that REFLEX owns the value of R93. -/
theorem outputsSafe_reevaluate (s : State) : OutputsSafe s.reevaluate := by
  rw [outputsSafe_iff]
  intro n hn
  rw [State.reevaluate_get] at *
  split at hn
  · next ho =>
    rw [if_pos ho]
    rfl
  · next ho => exact absurd (beq_iff_eq.2 hn) ho

/-! ### The Reflex Unit -/

theorem State.reportReflex_outputs (s : State) (i : SlotNo) (b : Bool) (r : Record) :
    (s.reportReflex i b r).outputs = s.outputs := by
  obtain ⟨_, e⟩ := s.reportReflex_frame i b r
  rw [e]

theorem OutputsSafe.of_eq {s t : State} (hs : OutputsSafe s) (hx : t.slots = s.slots)
    (ho : t.outputs = s.outputs) : OutputsSafe t :=
  hs.of_same (fun i => by rw [hx]) fun n _ => by rw [ho]

theorem OutputsSafe.reportReflex {s : State} (hs : OutputsSafe s) (i : SlotNo) (b : Bool) (r : Record) :
    OutputsSafe (s.reportReflex i b r) :=
  hs.of_eq (State.reportReflex_slots _ _ _ _) (State.reportReflex_outputs _ _ _ _)

theorem outputsSafe_beginAssert (s : State) (m : BitVec 32) : OutputsSafe (s.beginAssert m) :=
  (outputsSafe_reevaluate s).of_eq (State.setFlagIf_slots _ _ _) (State.setFlagIf_outputs _ _ _)

theorem outputsSafe_assertSlot (s : State) (i : SlotNo) : OutputsSafe (s.assertSlot i) :=
  (outputsSafe_beginAssert _ _).reportReflex _ _ _

theorem outputsSafe_completePulse (s : State) (i : SlotNo) (c : EndCause) (b : Bool) (st : Stamp) :
    OutputsSafe (s.completePulse i c b st) :=
  (outputsSafe_reevaluate _).reportReflex _ _ _

/-- A slot replaced by one that asserts as it did. -/
theorem OutputsSafe.setSlot {s : State} (hs : OutputsSafe s) {i : SlotNo} {x : Slot}
    (h : x.drives = (s.slots.get i).drives) : OutputsSafe (s.setSlot i x) := by
  refine hs.of_same (fun j => ?_) fun _ _ => rfl
  rw [State.setSlot_slots, Bank.get_set]
  split
  · next hj => rw [hj, h]
  · rfl

theorem Slot.drives_of_state {x y : Slot} (hs : y.state = x.state) (hm : y.config.mask = x.config.mask) :
    y.drives = x.drives := by
  unfold Slot.drives Slot.asserting
  rw [hs, hm]

theorem Slot.drives_none {x : Slot} (h : x.state ≠ .active ∧ x.state ≠ .holding) : x.drives = none :=
  if_neg (by rw [Slot.asserting_iff]; exact not_or.2 h)

theorem OutputsSafe.disarmSlot {s : State} (hs : OutputsSafe s) (i : SlotNo) (c : EndCause) :
    OutputsSafe (s.disarmSlot i c) := by
  unfold State.disarmSlot
  simp only
  split
  · exact (outputsSafe_reevaluate _).reportReflex _ _ _
  · next h =>
    exact hs.setSlot ((Slot.drives_none (x := { s.slots.get i with state := .disarmed, timer := none })
      ⟨nofun, nofun⟩).trans (if_neg h).symm)

theorem OutputsSafe.restartPulse (s : State) (i : SlotNo) (v : Bool) : OutputsSafe (s.restartPulse i v) := by
  unfold State.restartPulse
  simp only
  split
  · exact outputsSafe_assertSlot _ _
  · exact outputsSafe_reevaluate _

theorem OutputsSafe.triggerSlot {s : State} (hs : OutputsSafe s) (i : SlotNo) (v : Bool) :
    OutputsSafe (s.triggerSlot i v) := by
  have hquiet {x : Slot} (hx : x.state ≠ .active ∧ x.state ≠ .holding)
      (h : (s.slots.get i).state = .armed ∨ (s.slots.get i).state = .delaying) : OutputsSafe (s.setSlot i x) := by
    refine hs.setSlot ((Slot.drives_none hx).trans (Slot.drives_none ?_).symm)
    rcases h with e | e <;> rw [e] <;> exact ⟨nofun, nofun⟩
  unfold State.triggerSlot
  simp only
  split
  · exact hs
  · next h =>
    split
    · exact outputsSafe_assertSlot _ _
    · have := hquiet (x := (((s.setSlot i { s.slots.get i with edge := some v }).slots.get i)).startDelay)
        ⟨nofun, nofun⟩ (Or.inl h)
      exact this.of_same (fun j => by simp only [State.setSlot_slots, Bank.set_set]) fun _ _ => rfl
  · next h =>
    split
    · exact hquiet ⟨nofun, nofun⟩ (Or.inr h)
    · exact hs
    · exact hs
  · next h =>
    split
    · exact hs
    · exact hs.setSlot (Slot.drives_of_state rfl rfl)
    · exact OutputsSafe.restartPulse s i v
  · exact hs

theorem OutputsSafe.reflexMove {more : Prop} {s t : State} (h : ReflexMove more s t) (hs : OutputsSafe s) :
    OutputsSafe t := by
  cases h with
  | trigger i v _ => exact hs.triggerSlot i v
  | assert i _ _ => exact outputsSafe_assertSlot s i
  | complete i c b st _ _ => exact outputsSafe_completePulse s i c b st
  | disarm _ i c => exact hs.disarmSlot i c
  | arm _ i _ h =>
    have hoff : (s.slots.get i).state ≠ .active ∧ (s.slots.get i).state ≠ .holding := by
      rw [h]; exact ⟨nofun, nofun⟩
    exact hs.setSlot ((Slot.drives_none (x := { s.slots.get i with state := .armed, firings := 0 })
      ⟨nofun, nofun⟩).trans (Slot.drives_none hoff).symm)
  | configure _ i c h =>
    have hoff : (s.slots.get i).state ≠ .active ∧ (s.slots.get i).state ≠ .holding := by
      rw [h]; exact ⟨nofun, nofun⟩
    exact hs.setSlot ((Slot.drives_none (x := { s.slots.get i with config := c }) hoff).trans
      (Slot.drives_none hoff).symm)

/-! ### The other claims and the entry writes -/

theorem OutputsSafe.scheduleClaim {s : State} (hs : OutputsSafe s) (a : Action) (m : BitVec 32) :
    OutputsSafe (s.scheduleClaim a m) := by
  refine hs.of_same (fun i => by rw [State.scheduleClaim, State.setFlagIf_slots]) fun n => ?_
  simp only [State.scheduleClaim, State.setFlagIf_outputs, Bank.get_mapIdx, Bool.and_eq_true, beq_iff_eq]
  split
  · next h => exact fun hr => absurd (h.2.symm.trans hr) nofun
  · exact fun _ => rfl

theorem OutputsSafe.hostClaim {s : State} (hs : OutputsSafe s) (v : Bool) (half : Fin 2) (w : Word) :
    OutputsSafe (s.hostClaim v half w) := by
  refine hs.of_same (fun i => by rw [State.hostClaim, State.setFlagIf_slots]) fun n => ?_
  rw [State.hostClaim_get]
  split
  · next h => exact fun hr => absurd (h.2.symm.trans hr) nofun
  · exact fun _ => rfl

/-- An entry write recomputes the value of a line that it gives to REFLEX, or whose safe value it changes there
(R94, R95). -/
theorem OutputsSafe.writeOut {s : State} (hs : OutputsSafe s) (n : OutNo) (e : OutEntry) :
    OutputsSafe (s.writeOut n e) := by
  rw [outputsSafe_iff] at *
  intro k
  have hon : (s.writeOut n e).assertedOn k = s.assertedOn k := State.assertedOn_of_drives (fun _ => rfl) k
  rw [hon]
  unfold State.writeOut
  simp only [State.setOut_outputs, Bank.get_set]
  split
  · next hk =>
    subst hk
    intro (hr : e.owner = .reflex)
    simp only [hr, beq_self_eq_true, Bool.true_and]
    split
    · rfl
    · next hsame =>
      simp only [Bool.or_eq_true, bne_iff_ne, not_or, not_not] at hsame
      rw [hs k hsame.1, hsame.2]
  · exact hs k

/-! ### The Schedule Unit -/

theorem OutputsSafe.fireEntry {s : State} (hs : OutputsSafe s) (e : Entry) (late b : Bool) (st : Stamp) :
    OutputsSafe (s.fireEntry e late b st) := by
  unfold State.fireEntry
  simp only
  have hre (t : State) (x : Option Entry) : (t.reenter x).slots = t.slots ∧ (t.reenter x).outputs = t.outputs := by
    cases x <;> exact ⟨rfl, rfl⟩
  have hra (t : State) (d : Word) : (t.reportAction e b d st).slots = t.slots ∧
      (t.reportAction e b d st).outputs = t.outputs := by
    unfold State.reportAction
    split <;> exact ⟨rfl, rfl⟩
  exact (hs.scheduleClaim e.action e.mask).of_eq ((hra _ _).1.trans (hre _ _).1) ((hra _ _).2.trans (hre _ _).2)

theorem OutputsSafe.skipEntry {s : State} (hs : OutputsSafe s) (e : Entry) (st : Stamp) :
    OutputsSafe (s.skipEntry e st) := by
  unfold State.skipEntry State.reportAction
  simp only
  have hre : OutputsSafe (s.reenter (e.afterDue s.tb.counter).2) := by
    cases (e.afterDue s.tb.counter).2 <;> exact hs.of_eq rfl rfl
  split
  · exact hre.of_eq rfl rfl
  · exact hre

theorem finishCommit_frame (s : State) : ∃ sc cl fl,
    s.finishCommit = { s with sched := sc, claims := cl, errFlags := fl } := by
  unfold State.finishCommit State.setFlagIf
  split
  · exact ⟨_, _, _, rfl⟩
  · exact ⟨_, _, s.errFlags, rfl⟩

theorem startApplying_frame (s : State) : ∃ sc cl fl,
    s.startApplying = { s with sched := sc, claims := cl, errFlags := fl } := by
  unfold State.startApplying
  simp only
  split
  · obtain ⟨sc, cl, fl, e⟩ := finishCommit_frame (s.setSched { s.sched with
      commit := .applying, progress := 0, applied := 0, removed := 0, refused := 0, firstRefusal := none })
    exact ⟨sc, cl, fl, e⟩
  · exact ⟨_, s.claims, s.errFlags, rfl⟩

theorem OutputsSafe.scheduleMove {more : Prop} {s t : State} (h : ScheduleMove more s t) (hs : OutputsSafe s) :
    OutputsSafe t := by
  cases h with
  | fire a rest _ _ => exact OutputsSafe.fireEntry (s := s.setSched { s.sched with active := rest }) (hs.of_eq rfl rfl) _ _ _ _
  | start _ => obtain ⟨_, _, _, e⟩ := startApplying_frame s; rw [e]; exact hs.of_eq rfl rfl
  | finish _ => obtain ⟨_, _, _, e⟩ := finishCommit_frame s; rw [e]; exact hs.of_eq rfl rfl
  | late _ e _ _ =>
    exact (OutputsSafe.fireEntry (s := s.setSched { s.sched with nextOrder := s.sched.nextOrder + 1 })
      (hs.of_eq rfl rfl) e true false s.eventStamp).of_eq rfl rfl
  | _ => exact hs.of_eq rfl rfl

/-! ### Every step -/

theorem OutputsSafe.halt {s : State} (hs : OutputsSafe s) : OutputsSafe s.halt := by
  unfold State.halt
  exact forEach_keeps (fun i _ ht => ht.disarmSlot i _) (hs.of_eq rfl rfl)

theorem OutputsSafe.move {more : Prop} {s t : State} (h : Move more s t) (hs : OutputsSafe s) :
    OutputsSafe t := by
  cases h with
  | pool h => exact h.keeps fun _ _ _ _ => hs
  | reflex h => exact hs.reflexMove h
  | schedule h => exact hs.scheduleMove h
  | timebase h => exact h.keeps fun _ => hs
  | input h => exact h.keeps fun _ => hs
  | output h =>
    cases h with
    | claim _ v half w => exact hs.hostClaim v half w
    | write _ n e => exact hs.writeOut n e
  | part h =>
    cases h with
    | preset _ _ _ => exact hs
    | run _ _ => exact hs
    | halt _ => exact hs.halt
    | softReset _ =>
      intro n hn
      simp only [State.softResetValues, Bank.get_map] at hn
      cases hn
    | deviceReset _ _ =>
      intro n hn
      simp only [State.deviceResetValues, State.reset, Bank.get_fill] at hn
      cases hn
  | offer => exact hs
  | marks => exact hs
  | window => exact hs

theorem outputsSafe_reset : OutputsSafe State.reset := by
  intro n hn
  simp only [State.reset, Bank.get_fill] at hn
  cases hn

theorem OutputsSafe.takeAtStep {s : State} (hs : OutputsSafe s) (v : Time) (e : Entry) :
    OutputsSafe (State.takeAtStep v s e) := by
  unfold State.takeAtStep
  split
  · exact hs.fireEntry _ _ _ _
  · split
    · exact hs.fireEntry _ _ _ _
    · exact hs.skipEntry _ _

theorem OutputsSafe.stepEntries {s : State} (hs : OutputsSafe s) (v : Time) : OutputsSafe (s.stepEntries v) := by
  unfold State.stepEntries
  simp only
  have key : ∀ (l : List Active) (t : State), OutputsSafe t →
      OutputsSafe (l.foldl (fun t a => t.takeAtStep v a.entry) t) := by
    intro l
    induction l with
    | nil => exact fun _ ht => ht
    | cons a l ih => exact fun t ht => ih _ (ht.takeAtStep v a.entry)
  exact key _ _ (hs.of_eq rfl rfl)

theorem OutputsSafe.blockTick {s : State} (hs : OutputsSafe s) (samples : BitVec 64) (step : Option Time)
    (v : Time) : OutputsSafe (s.blockTick samples step v) := by
  have hcount : OutputsSafe (s.tickLines samples step).countSlots.countAges := by
    refine hs.of_same (fun i => ?_) fun _ _ => rfl
    simp only [State.tickLines, State.countAges, State.countSlots, Bank.get_map]
    exact Slot.drives_of_state rfl rfl
  cases step with
  | none => exact hcount
  | some a =>
    exact OutputsSafe.stepEntries (s := (s.tickLines samples (some a)).countSlots.countAges.runNotice)
      (hcount.of_eq rfl rfl) v

theorem OutputsSafe.makeTick {s : State} (hs : OutputsSafe s) (samples : BitVec 64) (sync first : Bool) :
    OutputsSafe (s.makeTick samples sync first) := by
  rw [makeTick_eq]
  have htb : OutputsSafe (s.timebaseTick sync first) := (timebaseTick_frame s sync first).keeps fun _ _ _ _ => hs
  exact htb.blockTick _ _ _

/-- Settles O59. -/
theorem stepKeepsTheReflexOutputs : Obligations.StepKeepsTheReflexOutputs := fun _ _ hs h =>
  step_keeps (P := OutputsSafe) (fun _ _ hs => hs) (fun _ _ hm hs => hs.move hm) (fun _ _ _ _ _ _ hs => hs)
    (fun _ samples sync first _ _ hc => hc.makeTick samples sync first) hs h

end Sys2Proof.Machine
end

section
/-!
PROOFS. Repeats and their catch-up (R134): the computed catch-up is the rule's repetition, and an entry that goes
on is ahead.
-/
namespace Sys2Proof.Machine

/-! ### The catch-up (R134) -/

theorem reached_iff (now t : Time) : reached now t = true ↔ (now - t).toNat < 2 ^ 47 := by
  simp only [reached, decide_eq_true_eq]

theorem reached_false_iff (now t : Time) : reached now t = false ↔ 2 ^ 47 ≤ (now - t).toNat := by
  simp only [reached, decide_eq_false_iff_not, not_lt]

/-- The skips of a catch-up: the number of repetitions whose due times are already reached. -/
def Rep.skips (r : Rep) (now due : Time) : Nat := (now - due).toNat / r.period.toNat + 1

theorem catchUp_ahead {now due : Time} (h : reached now due = false) (r : Rep) :
    catchUp now due r = (0, some (due, r)) := by
  simp [catchUp, h]

/-- The catch-up of an entry that is reached, without end, with repetitions to spare, and with too few. -/
theorem catchUp_reached {now due : Time} (h : reached now due = true) (r : Rep) :
    catchUp now due r =
      if r.count = 0 then (r.skips now due, some (due + BitVec.ofNat 48 (r.skips now due * r.period.toNat), r))
      else if r.skips now due < r.count.toNat then
        (r.skips now due, some (due + BitVec.ofNat 48 (r.skips now due * r.period.toNat),
          { r with count := r.count - BitVec.ofNat 16 (r.skips now due) }))
      else (r.count.toNat, none) := by
  unfold catchUp Rep.skips
  rw [if_pos h]

/-- The due time behind the skips lies ahead, by at most the period. -/
theorem skips_ahead (now due : Time) {r : Rep} (hp : r.period ≠ 0) :
    reached now (due + BitVec.ofNat 48 (r.skips now due * r.period.toNat)) = false ∧
      distance now (due + BitVec.ofNat 48 (r.skips now due * r.period.toNat)) ≤ r.period.toNat := by
  have hpos : 0 < r.period.toNat := Nat.pos_of_ne_zero fun h0 => hp (BitVec.eq_of_toNat_eq h0)
  have hlt := r.period.isLt
  have hdiv := Nat.div_add_mod (now - due).toNat r.period.toNat
  have hmod := Nat.mod_lt (now - due).toNat hpos
  have hk : r.skips now due * r.period.toNat =
      (now - due).toNat + (r.period.toNat - (now - due).toNat % r.period.toNat) := by
    rw [Rep.skips, Nat.add_mul, Nat.one_mul, Nat.mul_comm]
    omega
  obtain ⟨j, hj⟩ : ∃ j, j = r.period.toNat - (now - due).toNat % r.period.toNat := ⟨_, rfl⟩
  rw [hk, ← hj, reached_false_iff, distance]
  constructor <;> bv_omega

theorem catchUp_period {now due : Time} {r : Rep} {due' : Time} {r' : Rep}
    (h : (catchUp now due r).2 = some (due', r')) : r'.period = r.period := by
  cases hr : reached now due with
  | false => rw [catchUp_ahead hr] at h; cases h; rfl
  | true =>
    rw [catchUp_reached hr] at h
    split at h
    · cases h; rfl
    · split at h
      · cases h; rfl
      · cases h

/-- An entry that goes on after a skip is ahead by at most its period (R134). -/
theorem catchUp_goesOn {now due : Time} {r : Rep} {due' : Time} {r' : Rep} (hp : r.period ≠ 0)
    (hr : reached now due = true) (h : (catchUp now due r).2 = some (due', r')) :
    reached now due' = false ∧ distance now due' ≤ r.period.toNat := by
  rw [catchUp_reached hr] at h
  split at h
  · cases h; exact skips_ahead now due hp
  · split at h
    · cases h; exact skips_ahead now due hp
    · cases h

/-- A due time one period on: reached where the period fits the ticks since the due time, with one skip
fewer. -/
theorem reached_next {now due : Time} {r : Rep} (h : reached now due = true) (hp : r.period ≠ 0) :
    (reached now (due + r.period.zeroExtend 48) = true ↔ r.period.toNat ≤ (now - due).toNat) ∧
    (r.period.toNat ≤ (now - due).toNat →
      ∀ c, r.skips now due = Rep.skips ⟨r.period, c⟩ now (due + r.period.zeroExtend 48) + 1) ∧
    ((now - due).toNat < r.period.toNat → r.skips now due = 1) := by
  rw [reached_iff] at h
  have hpos : 0 < r.period.toNat := Nat.pos_of_ne_zero fun h0 => hp (BitVec.eq_of_toNat_eq h0)
  have hext : (r.period.zeroExtend 48).toNat = r.period.toNat := BitVec.toNat_setWidth_of_le (by decide)
  have hlt := r.period.isLt
  refine ⟨?_, fun hle c => ?_, fun hgt => ?_⟩
  · rw [reached_iff]
    bv_omega
  · have hnext : (now - (due + r.period.zeroExtend 48)).toNat = (now - due).toNat - r.period.toNat := by bv_omega
    simp only [Rep.skips, hnext]
    rw [← Nat.sub_add_cancel hle, Nat.add_div_right _ hpos, Nat.add_sub_cancel]
  · rw [Rep.skips, Nat.div_eq_of_lt hgt]

theorem catchUpByRule_ahead {now due : Time} (h : reached now due = false) (n : Nat) (r : Rep) :
    catchUpByRule now n due r = (0, some (due, r)) := by
  cases n <;> simp [catchUpByRule, h]

/-- What one skip of a limited repetition leaves of it. -/
theorem sub_one_toNat {c : Word} (h : c ≠ 0) : (c - 1).toNat = c.toNat - 1 ∧ 1 ≤ c.toNat := by bv_omega

/-- The rule's repetition skips what the model computes (R134; assumption log 14). -/
theorem catchUpByRule_eq {now : Time} (n : Nat) {due : Time} {r : Rep} (hp : r.period ≠ 0)
    (hr : reached now due = true) (hn : r.skips now due ≤ n) :
    catchUpByRule now n due r = catchUp now due r := by
  induction n generalizing due r with
  | zero => exact absurd hn (Nat.not_succ_le_zero _)
  | succ n ih =>
    obtain ⟨p, c⟩ := r
    obtain ⟨hiff, hskips, hone⟩ := reached_next hr hp
    have hext : BitVec.ofNat 48 p.toNat = p.zeroExtend 48 := BitVec.ofNat_toNat 48 p
    rw [catchUp_reached hr]
    simp only [catchUpByRule, hr, if_true]
    by_cases hc1 : c = 1
    · subst hc1
      have hfew : ¬ Rep.skips ⟨p, 1⟩ now due < (1 : Word).toNat := Nat.not_lt.2 (Nat.le_add_left _ _)
      rw [if_pos rfl, if_neg (by decide), if_neg hfew]
      rfl
    rw [if_neg hc1]
    cases hnext : reached now (due + p.zeroExtend 48) with
    | false =>
      have hk : Rep.skips ⟨p, c⟩ now due = 1 := hone (Nat.not_le.1 (hiff.not.1 (by simp [hnext])))
      rw [catchUpByRule_ahead hnext, hk, Nat.one_mul, hext]
      by_cases hc : c = 0
      · simp only [hc, if_true]
      · have hmore : 1 < c.toNat := by bv_omega
        simp only [hc, hmore, if_true, if_false]
        rfl
    | true =>
      have hk := hskips (hiff.1 hnext) (if c = 0 then 0 else c - 1)
      rw [ih (r := ⟨p, if c = 0 then 0 else c - 1⟩) hp hnext (Nat.le_of_succ_le_succ (hk.symm.trans_le hn)),
        catchUp_reached hnext, hk]
      generalize Rep.skips ⟨p, if c = 0 then 0 else c - 1⟩ now (due + p.zeroExtend 48) = k
      have hdue : due + p.zeroExtend 48 + BitVec.ofNat 48 (k * p.toNat) =
          due + BitVec.ofNat 48 ((k + 1) * p.toNat) := by
        rw [Nat.add_mul, Nat.one_mul, Nat.add_comm (k * _), BitVec.ofNat_add, ← BitVec.add_assoc, hext]
      simp only [hdue]
      by_cases hc : c = 0
      · simp only [hc, if_true]
      · have hc' : c - 1 ≠ 0 := by bv_omega
        obtain ⟨hsub, hpos⟩ := sub_one_toNat hc
        have hlt : k < c.toNat - 1 ↔ k + 1 < c.toNat := by omega
        simp only [hc, hc', if_false, hsub, hlt]
        split
        · have hcount : c - 1 - BitVec.ofNat 16 k = c - BitVec.ofNat 16 (k + 1) := by
            rw [Nat.add_comm, BitVec.ofNat_add, BitVec.sub_sub]
            rfl
          rw [hcount]
        · rw [Nat.sub_add_cancel hpos]

/-- Settles O44. -/
theorem catchUpFollowsTheRule : Obligations.CatchUpFollowsTheRule := by
  intro now due r hp
  refine ⟨fun n hn => ?_, fun due' r' hr h => ?_⟩
  · cases hr : reached now due with
    | false => rw [catchUp_ahead hr, catchUpByRule_ahead hr]
    | true =>
      have hle : r.skips now due ≤ 2 ^ 47 := by
        rw [reached_iff] at hr
        exact Nat.succ_le_of_lt ((Nat.div_le_self _ _).trans_lt hr)
      rw [catchUpByRule_eq n hp hr (hle.trans hn)]
  · obtain ⟨hahead, hdist⟩ := catchUp_goesOn hp hr h
    exact ⟨hahead, hdist, catchUp_period h⟩

/-! ### Entries that go on -/

/-- The catch-up of a repetition goes on with an entry that is ahead. -/
theorem catchUp_isAhead {now due : Time} {r : Rep} {due' : Time} {r' : Rep} (hp : r.period ≠ 0)
    (h : (catchUp now due r).2 = some (due', r')) : reached now due' = false := by
  cases hr : reached now due with
  | false => rw [catchUp_ahead hr] at h; cases h; exact hr
  | true => exact (catchUp_goesOn hp hr h).1

/-- An entry that goes on at its due time is ahead, with its fields in range where they were (R128, R134). -/
theorem Entry.afterDue_goesOn {now : Time} {e e' : Entry} (hr : e.inRange) (h : (e.afterDue now).2 = some e') :
    reached now e'.due = false ∧ e'.inRange := by
  obtain ⟨htag, hmask, hperiod⟩ := hr
  unfold Entry.afterDue at h
  split at h
  · cases h
  · next r hrep =>
    split at h
    · cases h
    · obtain ⟨⟨due', r'⟩, hc, rfl⟩ := Option.map_eq_some_iff.1 h
      have hp := hperiod r hrep
      refine ⟨catchUp_isAhead (r := ⟨r.period, if r.count = 0 then 0 else r.count - 1⟩) hp hc, htag, hmask, fun x hx => ?_⟩
      cases hx
      rw [catchUp_period hc]
      exact hp

end Sys2Proof.Machine
end

section
/-!
PROOFS. The lists of the Schedule Unit: in their bounds (R128, R129, R149, R166), and the active list in the
order of R130 under every move, as the time value advances and as it steps.
-/
namespace Sys2Proof.Machine

/-! ### The order of the list (R130) -/

/-- One entry may stand ahead of another: it is reached, or the other is ahead too and comes later. -/
def Active.precedes (now : Time) (a b : Active) : Prop :=
  reached now a.entry.due = true ∨ (reached now b.entry.due = false ∧ Active.before now a b)

theorem pairwise_precedes_iff (now : Time) (xs : List Active) :
    xs.Pairwise (Active.precedes now) ↔
      (xs.Pairwise fun a b => reached now b.entry.due = true → reached now a.entry.due = true) ∧
      (xs.filter fun a => !reached now a.entry.due).Pairwise (Active.before now) := by
  rw [List.pairwise_filter, ← List.pairwise_and_iff]
  refine List.Pairwise.iff fun a b => ?_
  cases ha : reached now a.entry.due <;> cases hb : reached now b.entry.due <;> simp [Active.precedes, ha, hb]

theorem scheduleOrdered_iff (s : State) : ScheduleOrdered s ↔
    s.sched.active.Pairwise (Active.precedes s.tb.counter) ∧ ∀ a ∈ s.sched.active, a.order < s.sched.nextOrder := by
  rw [pairwise_precedes_iff]
  exact ⟨fun ⟨a, b, c⟩ => ⟨⟨a, b⟩, c⟩, fun ⟨⟨a, b⟩, c⟩ => ⟨a, b, c⟩⟩

theorem insertActive_perm (now : Time) (a : Active) (xs : List Active) :
    (insertActive now a xs).Perm (a :: xs) := by
  induction xs with
  | nil => exact List.Perm.refl _
  | cons x xs ih =>
    unfold insertActive
    split
    · exact List.Perm.refl _
    · exact (ih.cons x).trans (List.Perm.swap a x xs)

theorem mem_insertActive {now : Time} {a x : Active} {xs : List Active} :
    x ∈ insertActive now a xs ↔ x = a ∨ x ∈ xs := by
  rw [(insertActive_perm now a xs).mem_iff, List.mem_cons]

theorem length_insertActive (now : Time) (a : Active) (xs : List Active) :
    (insertActive now a xs).length = xs.length + 1 := (insertActive_perm now a xs).length_eq

theorem Active.before_distance {now : Time} {a b : Active} (h : Active.before now a b) :
    distance now a.entry.due ≤ distance now b.entry.due := by
  rcases h with h | ⟨h, -⟩
  · exact h.le
  · rw [h]

theorem distance_inj {now t u : Time} (h : distance now t = distance now u) : t = u := by
  unfold distance at h
  bv_omega

/-- An entry that is ahead and newer than all takes a place that keeps the order (R130). -/
theorem insertActive_ordered {now : Time} {a : Active} {xs : List Active}
    (h : xs.Pairwise (Active.precedes now)) (ha : reached now a.entry.due = false)
    (hnew : ∀ x ∈ xs, x.order < a.order) : (insertActive now a xs).Pairwise (Active.precedes now) := by
  induction xs with
  | nil => exact List.pairwise_singleton _ _
  | cons x xs ih =>
    obtain ⟨hx, hxs⟩ := List.pairwise_cons.1 h
    unfold insertActive
    split
    · next hahead =>
      obtain ⟨hxr, hlt⟩ := Bool.and_eq_true_iff.1 hahead
      rw [Bool.not_eq_true'] at hxr
      rw [decide_eq_true_eq] at hlt
      refine List.pairwise_cons.2 ⟨fun y hy => Or.inr ?_, h⟩
      rcases List.mem_cons.1 hy with rfl | hy
      · exact ⟨hxr, Or.inl hlt⟩
      · rcases hx y hy with hr | ⟨hyr, hb⟩
        · exact absurd (hxr.symm.trans hr) nofun
        · exact ⟨hyr, Or.inl (hlt.trans_le (Active.before_distance hb))⟩
    · next hbehind =>
      refine List.pairwise_cons.2 ⟨fun y hy => ?_, ih hxs fun y hy => hnew y (List.mem_cons_of_mem x hy)⟩
      rcases mem_insertActive.1 hy with rfl | hy
      · cases hxr : reached now x.entry.due with
        | true => exact Or.inl hxr
        | false =>
          refine Or.inr ⟨ha, ?_⟩
          simp only [hxr, Bool.not_false, Bool.true_and, decide_eq_true_eq, Nat.not_lt] at hbehind
          rcases Nat.lt_or_eq_of_le hbehind with hlt | heq
          · exact Or.inl hlt
          · exact Or.inr ⟨distance_inj heq, hnew x List.mem_cons_self⟩
      · exact hx y hy

/-- The order that two entries have while both are ahead does not rest on the time value: the times ahead are
half of the time circle (R3). -/
theorem before_of_before {now now' : Time} {a b : Active} (h : Active.before now a b)
    (ha : reached now a.entry.due = false) (hb : reached now b.entry.due = false)
    (ha' : reached now' a.entry.due = false) (hb' : reached now' b.entry.due = false) :
    Active.before now' a b := by
  rcases h with h | h
  · refine Or.inl ?_
    rw [reached_false_iff] at *
    unfold distance at *
    bv_omega
  · exact Or.inr h

/-- A time value that advances by at most two reaches the entries in their order. -/
theorem reached_of_before {now k : Time} {a b : Active} (hk : k.toNat ≤ 2) (h : Active.before now a b)
    (hb : reached now b.entry.due = false) (hb' : reached (now + k) b.entry.due = true) : reached (now + k) a.entry.due = true := by
  rcases h with h | ⟨h, -⟩
  · rw [reached_false_iff] at *
    rw [reached_iff] at *
    unfold distance at h
    bv_omega
  · rw [h]
    exact hb'

/-- All entries ahead and in order, the list stays in order as the time value advances. -/
theorem pairwise_precedes_advance {now k : Time} {xs : List Active} (hk : k.toNat ≤ 2)
    (hx : ∀ a ∈ xs, reached now a.entry.due = false) (h : xs.Pairwise (Active.precedes now)) :
    xs.Pairwise (Active.precedes (now + k)) := by
  refine h.imp_of_mem fun {a b} ha hb hab => ?_
  rcases hab with hr | ⟨-, hab⟩
  · exact absurd ((hx a ha).symm.trans hr) nofun
  · cases ha' : reached (now + k) a.entry.due with
    | true => exact Or.inl ha'
    | false =>
      have hb' : reached (now + k) b.entry.due = false := Bool.eq_false_iff.2 fun hb' =>
        absurd (ha'.symm.trans (reached_of_before hk hab (hx b hb) hb')) nofun
      exact Or.inr ⟨hb', before_of_before hab (hx a ha) (hx b hb) ha' hb'⟩

/-- All entries ahead and in order, those still ahead at another time value are in order there. -/
theorem pairwise_precedes_rest {now now' : Time} {xs : List Active}
    (hx : ∀ a ∈ xs, reached now a.entry.due = false) (h : xs.Pairwise (Active.precedes now)) :
    (xs.filter fun a => !reached now' a.entry.due).Pairwise (Active.precedes now') := by
  rw [List.pairwise_filter]
  refine h.imp_of_mem fun {a b} ha hb hab ha' hb' => ?_
  rw [Bool.not_eq_true'] at ha' hb'
  rcases hab with hr | ⟨-, hab⟩
  · exact absurd ((hx a ha).symm.trans hr) nofun
  · exact Or.inr ⟨hb', before_of_before hab (hx a ha) (hx b hb) ha' hb'⟩

/-! ### Entries that enter and leave -/

/-- The Schedule Unit after the firing or the skip of an entry, by what becomes of it at its due time (R134). -/
def Schedule.reentered (x : Schedule) (now : Time) (e : Option Entry) : Schedule :=
  match e with
  | none => x
  | some e => { x with active := insertActive now ⟨e, x.nextOrder⟩ x.active, nextOrder := x.nextOrder + 1 }

theorem State.reenter_sched (s : State) (e : Option Entry) :
    (s.reenter e).sched = s.sched.reentered s.tb.counter e := by
  cases e <;> rfl

theorem State.reportAction_sched (s : State) (e : Entry) (b : Bool) (d : Word) (st : Stamp) :
    (s.reportAction e b d st).sched = s.sched := by
  unfold State.reportAction
  split <;> rfl

theorem State.fireEntry_sched (s : State) (e : Entry) (late b : Bool) (st : Stamp) :
    (s.fireEntry e late b st).sched = s.sched.reentered s.tb.counter (e.afterDue s.tb.counter).2 := by
  unfold State.fireEntry
  simp only
  obtain ⟨_, _, h⟩ := s.scheduleClaim_frame e.action e.mask
  rw [State.reportAction_sched, State.reenter_sched, h]

theorem State.skipEntry_sched (s : State) (e : Entry) (st : Stamp) :
    (s.skipEntry e st).sched = s.sched.reentered s.tb.counter (e.afterDue s.tb.counter).2 := by
  unfold State.skipEntry
  simp only
  rw [State.reportAction_sched, State.reenter_sched]

/-- The order of a Schedule Unit against a time value (R130). -/
structure Schedule.Ordered (x : Schedule) (now : Time) : Prop where
  precedes : x.active.Pairwise (Active.precedes now)
  given : ∀ a ∈ x.active, a.order < x.nextOrder

theorem scheduleOrdered_iff_ordered (s : State) : ScheduleOrdered s ↔ s.sched.Ordered s.tb.counter :=
  (scheduleOrdered_iff s).trans ⟨fun ⟨a, b⟩ => ⟨a, b⟩, fun ⟨a, b⟩ => ⟨a, b⟩⟩

theorem Schedule.Ordered.sublist {x : Schedule} {now : Time} (h : x.Ordered now) {keep : List Active}
    (hk : keep.Sublist x.active) : Schedule.Ordered { x with active := keep } now :=
  ⟨h.1.sublist hk, fun a ha => h.2 a (hk.subset ha)⟩

/-- An entry ahead enters an ordered list and leaves it ordered. -/
theorem Schedule.Ordered.enter {x : Schedule} {now : Time} (h : x.Ordered now) {e : Entry}
    (he : reached now e.due = false) : Schedule.Ordered
      { x with active := insertActive now ⟨e, x.nextOrder⟩ x.active, nextOrder := x.nextOrder + 1 } now := by
  refine ⟨insertActive_ordered h.1 he h.2, fun a ha => ?_⟩
  rcases mem_insertActive.1 ha with rfl | ha
  · exact Nat.lt_succ_self _
  · exact (h.2 a ha).trans (Nat.lt_succ_self _)

theorem Schedule.Ordered.reentered {x : Schedule} {now : Time} (h : x.Ordered now) {e : Entry} (he : e.inRange) :
    (x.reentered now (e.afterDue now).2).Ordered now := by
  cases hd : (e.afterDue now).2 with
  | none => exact h
  | some e' => exact h.enter (Entry.afterDue_goesOn he hd).1

/-- The list with an entry that was in range beside it: at most one more, in range (R128). -/
theorem ScheduleSafe.reentered {x : Schedule} (h : ScheduleSafe x) (hl : x.active.length < 256) {now : Time}
    {e : Entry} (he : e.inRange) : ScheduleSafe (x.reentered now (e.afterDue now).2) := by
  cases hd : (e.afterDue now).2 with
  | none => exact h
  | some e' =>
    refine ⟨?_, h.2, fun a ha => ?_, h.4, h.5, h.6⟩
    · exact (length_insertActive _ _ _).trans_le hl
    · rcases mem_insertActive.1 ha with rfl | ha
      · exact (Entry.afterDue_goesOn he hd).2
      · exact h.3 a ha

theorem ScheduleSafe.sublist {x : Schedule} (h : ScheduleSafe x) {keep : List Active}
    (hk : keep.Sublist x.active) : ScheduleSafe { x with active := keep } :=
  ⟨hk.length_le.trans h.1, h.2, fun a ha => h.3 a (hk.subset ha), h.4, h.5, h.6⟩

theorem scheduleSafe_reset : ScheduleSafe State.reset.sched :=
  ⟨Nat.zero_le _, Nat.zero_le _, nofun, nofun, fun _ => Nat.le_refl _, fun _ => rfl⟩

/-- A batch that is over leaves the staging list empty and the commit OPEN. -/
theorem ScheduleSafe.finished {x : Schedule} (h : ScheduleSafe x) :
    ScheduleSafe { x with staging := [], progress := 0, commit := .open_ } :=
  ⟨h.1, Nat.zero_le _, h.3, nofun, nofun, fun _ => rfl⟩

theorem State.finishCommit_sched (s : State) :
    s.finishCommit.sched = { s.sched with staging := [], progress := 0, commit := .open_ } := by
  unfold State.finishCommit
  rw [State.setFlagIf_sched]
  rfl

theorem ScheduleSafe.startApplying {s : State} (h : ScheduleSafe s.sched) : ScheduleSafe s.startApplying.sched := by
  have hstart : ScheduleSafe { s.sched with
      commit := .applying, progress := 0, applied := 0, removed := 0, refused := 0, firstRefusal := none } :=
    ⟨h.1, h.2, h.3, h.4, fun _ => Nat.zero_le _, fun hc => absurd rfl hc⟩
  unfold State.startApplying
  simp only
  split
  · rw [State.finishCommit_sched]
    exact hstart.finished
  · exact hstart

theorem State.startApplying_active (s : State) :
    s.startApplying.sched.active = s.sched.active ∧ s.startApplying.sched.nextOrder = s.sched.nextOrder := by
  unfold State.startApplying
  simp only
  split
  · rw [State.finishCommit_sched]
    exact ⟨rfl, rfl⟩
  · exact ⟨rfl, rfl⟩

/-- An operation that is next is one of the batch, which is applying. -/
theorem State.nextOp_eq_some {s : State} {o : StagedOp} (h : s.nextOp = some o) :
    s.sched.commit = .applying ∧ o ∈ s.sched.staging ∧ s.sched.progress < s.sched.staging.length := by
  unfold State.nextOp at h
  split at h
  · next hc => exact ⟨hc, List.mem_of_getElem? h, (List.getElem?_eq_some_iff.1 h).1⟩
  · cases h

/-- An operation that is counted leaves the lists as its application does (R158). -/
theorem ScheduleSafe.counted {x : Schedule} (h : ScheduleSafe x) (hc : x.commit = .applying)
    (hp : x.progress < x.staging.length) (ap re : Nat) (fr : Option (OpRefusal × Nat)) :
    ScheduleSafe { x with progress := x.progress + 1, applied := ap, refused := re, firstRefusal := fr } :=
  ⟨h.1, h.2, h.3, h.4, fun _ => hp, fun hn => absurd hc hn⟩

theorem ScheduleSafe.move {more : Prop} {s t : State} (h : ScheduleMove more s t) (hs : ScheduleSafe s.sched) :
    ScheduleSafe t.sched := by
  cases h with
  | fire a rest _ ha =>
    rw [State.fireEntry_sched]
    have hrest : ScheduleSafe { s.sched with active := rest } := hs.sublist (ha ▸ List.sublist_cons_self a rest)
    refine hrest.reentered ?_ (hs.active_range a (ha ▸ List.mem_cons_self))
    exact Nat.lt_of_succ_le ((congrArg List.length ha).symm.trans_le hs.active_le)
  | start _ => exact hs.startApplying
  | finish _ =>
    rw [State.finishCommit_sched]
    exact hs.finished
  | stage _ o hc hl ho =>
    refine ⟨hs.1, ?_, hs.3, fun p hp => ?_, fun h => absurd (hc.symm.trans h) nofun, fun _ =>
      hs.6 (by rw [hc]; exact nofun)⟩
    · simp only [State.setSched_sched, List.length_append, List.length_singleton]
      exact hl
    · rcases List.mem_append.1 hp with hp | hp
      · exact hs.4 p hp
      · rw [List.mem_singleton.1 hp]
        exact ho
  | discard _ hc =>
    exact ⟨hs.1, Nat.zero_le _, hs.3, nofun, fun h => absurd (hc.symm.trans h) nofun, fun h => hs.6 h⟩
  | arm _ hc => exact ⟨hs.1, hs.2, hs.3, hs.4, nofun, fun _ => hs.6 (by rw [hc]; exact nofun)⟩
  | abort _ hc => exact ⟨hs.1, hs.2, hs.3, hs.4, nofun, fun _ => hs.6 (by rw [hc]; exact nofun)⟩
  | settings _ cat sarg => exact ⟨hs.1, hs.2, hs.3, hs.4, hs.5, hs.6⟩
  | insert _ e ho hl hr =>
    obtain ⟨hc, hmem, hp⟩ := State.nextOp_eq_some ho
    have hin : ScheduleSafe (s.enterActive e).sched := by
      refine ⟨(length_insertActive _ _ _).trans_le hl, hs.2, fun a ha => ?_, hs.4, hs.5, hs.6⟩
      rcases mem_insertActive.1 ha with rfl | ha
      · exact hs.staged_range _ hmem
      · exact hs.3 a ha
    exact hin.counted hc hp _ _ _
  | late _ e ho hl =>
    obtain ⟨hc, hmem, hp⟩ := State.nextOp_eq_some ho
    have hkept : ScheduleSafe { s.sched with nextOrder := s.sched.nextOrder + 1 } :=
      ⟨hs.1, hs.2, hs.3, hs.4, hs.5, hs.6⟩
    have hfired : (s.fireLate e).sched = _ := State.fireEntry_sched _ e true false _
    have hsame : (s.fireLate e).sched.commit = s.sched.commit ∧ (s.fireLate e).sched.staging = s.sched.staging ∧
        (s.fireLate e).sched.progress = s.sched.progress := by
      rw [hfired]
      unfold Schedule.reentered
      split <;> exact ⟨rfl, rfl, rfl⟩
    have hsafe : ScheduleSafe (s.fireLate e).sched := by
      rw [hfired]
      exact hkept.reentered hl (hs.staged_range _ hmem)
    exact hsafe.counted (hsame.1.trans hc) (by rw [hsame.2.1, hsame.2.2]; exact hp) _ _ _
  | remove _ o keep ho hk =>
    obtain ⟨hc, -, hp⟩ := State.nextOp_eq_some ho
    have hkeep := hs.sublist hk
    exact ⟨hkeep.1, hkeep.2, hkeep.3, hkeep.4, fun _ => hp, fun hn => absurd hc hn⟩
  | refuse _ o why ho =>
    obtain ⟨hc, -, hp⟩ := State.nextOp_eq_some ho
    exact hs.counted hc hp _ _ _

end Sys2Proof.Machine
end

section
/-!
PROOFS. The active list as the time value moves: a completed tick leaves no entry reached, an advance then
reaches entries in their order (R130), and a step takes those it reaches and leaves the others in order
(R137). Settles O60.
-/
namespace Sys2Proof.Machine

/-! ### A completed tick leaves no entry reached (R132) -/

theorem State.headReached_iff (s : State) :
    s.headReached = true ↔ ∃ a rest, s.sched.active = a :: rest ∧ reached s.tb.counter a.entry.due = true := by
  unfold State.headReached
  split
  · next h => simp [h]
  · next a rest h => simp [h]

/-- With the head ahead, every entry is. -/
theorem Schedule.Ordered.ahead {s : State} (h : s.sched.Ordered s.tb.counter) (hh : s.headReached = false) :
    ∀ a ∈ s.sched.active, reached s.tb.counter a.entry.due = false := by
  have hp := h.precedes
  unfold State.headReached at hh
  split at hh
  · next h => simp [h]
  · next a rest hs =>
    rw [hs] at hp ⊢
    intro b hb
    rcases List.mem_cons.1 hb with rfl | hb
    · exact hh
    · rcases (List.pairwise_cons.1 hp).1 b hb with hr | ⟨hr, -⟩
      · exact absurd (hh.symm.trans hr) nofun
      · exact hr

/-- The entries of the list that are reached. -/
def State.reachedCount (s : State) : Nat := s.sched.active.countP fun a => reached s.tb.counter a.entry.due

theorem State.headReached_false_of_count {s : State} (h : s.reachedCount = 0) : s.headReached = false := by
  rw [State.reachedCount, List.countP_eq_zero] at h
  refine Bool.eq_false_iff.2 fun hh => ?_
  obtain ⟨a, rest, ha, hr⟩ := s.headReached_iff.1 hh
  exact h a (ha ▸ List.mem_cons_self) hr

/-- An entry that goes on is ahead, and so none more is reached. -/
theorem Schedule.countP_reentered (x : Schedule) (now : Time) {e : Entry} (he : e.inRange) :
    ((x.reentered now (e.afterDue now).2).active.countP fun a => reached now a.entry.due) =
      x.active.countP fun a => reached now a.entry.due := by
  cases hd : (e.afterDue now).2 with
  | none => rfl
  | some e' =>
    refine ((insertActive_perm now ⟨e', x.nextOrder⟩ x.active).countP_eq _).trans ?_
    rw [List.countP_cons_of_neg]
    simp [(Entry.afterDue_goesOn he hd).1]

/-- The lists in their bounds and in order. -/
structure State.ScheduleSound (s : State) : Prop where
  safe : ScheduleSafe s.sched
  ordered : s.sched.Ordered s.tb.counter

theorem ScheduleOnly.tb {s t : State} (h : ScheduleOnly s t) : t.tb = s.tb :=
  h.keeps (P := fun t => t.tb = s.tb) fun _ _ _ _ => rfl

theorem State.fireHead_reached {s : State} (hr : s.tb.state ≠ .stopped) (hs : s.ScheduleSound)
    (hh : s.headReached = true) :
    s.fireHead.ScheduleSound ∧ s.fireHead.tb = s.tb ∧ s.fireHead.reachedCount + 1 = s.reachedCount := by
  obtain ⟨a, rest, ha, hreach⟩ := s.headReached_iff.1 hh
  have hrange := hs.safe.active_range a (ha ▸ List.mem_cons_self)
  have hrest : rest.Sublist s.sched.active := ha ▸ List.sublist_cons_self a rest
  have hfire : s.fireHead =
      (s.setSched { s.sched with active := rest }).fireEntry a.entry false true s.tickStamp := by
    unfold State.fireHead
    rw [State.whenTickDue_running hr, hh, State.whenDue_true, ha]
  have htb : s.fireHead.tb = s.tb := by
    rw [hfire]
    exact ((scheduleOnly_setSched s _).trans (scheduleOnly_fireEntry _ _ _ _ _)).tb
  have hsched : s.fireHead.sched =
      ({ s.sched with active := rest } : Schedule).reentered s.tb.counter (a.entry.afterDue s.tb.counter).2 := by
    rw [hfire, State.fireEntry_sched]
    rfl
  have hlen : rest.length < 256 :=
    Nat.lt_of_succ_le ((congrArg List.length ha).symm.trans_le hs.safe.active_le)
  refine ⟨⟨?_, ?_⟩, htb, ?_⟩
  · rw [hsched]
    exact (hs.safe.sublist hrest).reentered hlen hrange
  · rw [hsched, htb]
    exact (hs.ordered.sublist hrest).reentered hrange
  · rw [State.reachedCount, State.reachedCount, htb, hsched, Schedule.countP_reentered _ _ hrange, ha,
      List.countP_cons_of_pos (by exact hreach)]

/-- As many firings as entries are reached leave none reached. -/
theorem State.fireHeads_headReached (n : Nat) {s : State} (hr : s.tb.state ≠ .stopped) (hs : s.ScheduleSound)
    (hn : s.reachedCount ≤ n) : (State.fireHeads n s).headReached = false := by
  induction n generalizing s with
  | zero => exact State.headReached_false_of_count (Nat.le_zero.1 hn)
  | succ n ih =>
    cases hh : s.headReached with
    | true =>
      obtain ⟨hs', htb, hc⟩ := State.fireHead_reached hr hs hh
      exact ih (by rw [htb]; exact hr) hs' (by omega)
    | false =>
      have hsame : s.fireHead = s := by
        unfold State.fireHead
        rw [hh, State.whenTickDue_false]
      have hcount : s.reachedCount = 0 :=
        List.countP_eq_zero.2 fun a ha => by simp [hs.ordered.ahead hh a ha]
      rw [State.fireHeads, hsame]
      exact ih hr hs (by omega)

theorem Timebase.expire_counter (t : Timebase) : t.expire.tb.counter = t.counter := by
  unfold Timebase.expire
  split <;> rfl

theorem State.missExpiry_counter (s : State) : s.missExpiry.tb.counter = s.tb.counter := by
  rw [State.missExpiry_tb]
  split
  · exact s.tb.expire_counter
  · rfl

theorem State.missExpiry_sched (s : State) : s.missExpiry.sched = s.sched :=
  (timebaseOnly_missExpiry s).keeps (P := fun t => t.sched = s.sched) fun _ _ _ _ => rfl

theorem State.finishCapture_sched (s : State) : s.finishCapture.sched = s.sched := by
  obtain ⟨_, _, _, _, _, _, e⟩ := inputOnly_finishCapture s
  rw [e]

theorem State.finishCapture_tb (s : State) : s.finishCapture.tb = s.tb := (inputOnly_finishCapture s).tb

theorem State.commitReached_active (s : State) : s.commitReached.sched.active = s.sched.active := by
  rcases s.whenTickDue_cases s.commitDue State.startApplying with ⟨-, -, e⟩ | ⟨-, e⟩
  · exact (congrArg (fun t : State => t.sched.active) e).trans s.startApplying_active.1
  · exact congrArg (fun t : State => t.sched.active) e

theorem State.ageRunsOut_sched (s : State) (g : GroupNo) : (s.ageRunsOut g).sched = s.sched := by
  obtain ⟨_, e⟩ := s.ageRunsOut_frame g
  rw [e]

/-- What the firings at the end of a tick leave of the active list stands until the tick is completed. -/
theorem completeTick_active (s : State) : s.completeTick.sched.active =
    (State.fireHeads s.sched.active.length s.missExpiry.finishCapture).sched.active := by
  unfold State.completeTick State.finishTick
  simp only
  obtain ⟨_, _, _, _, e⟩ := State.takeClaims_frame _ (forEach (fun g t => t.ageRunsOut g)
    (State.fireHeads s.missExpiry.finishCapture.sched.active.length s.missExpiry.finishCapture).commitReached)
  rw [e, forEach_same (fun t : State => t.sched) fun g t => t.ageRunsOut_sched g, State.commitReached_active,
    State.finishCapture_sched, State.missExpiry_sched]

/-- After the firings at its end no entry of a tick is reached (R132). -/
theorem completeTick_headReached {s : State} (hr : s.tb.state ≠ .stopped) (hs : s.ScheduleSound) :
    s.completeTick.headReached = false := by
  have hsched : s.missExpiry.finishCapture.sched = s.sched :=
    s.missExpiry.finishCapture_sched.trans s.missExpiry_sched
  have htb : s.missExpiry.finishCapture.tb = s.missExpiry.tb := s.missExpiry.finishCapture_tb
  have hcounter : s.missExpiry.finishCapture.tb.counter = s.tb.counter := by rw [htb, State.missExpiry_counter]
  have hrun : s.missExpiry.finishCapture.tb.state ≠ .stopped := by
    rw [htb]
    exact missExpiry_state_ne_stopped hr
  have hsound : s.missExpiry.finishCapture.ScheduleSound := by
    refine ⟨?_, ?_⟩
    · rw [hsched]
      exact hs.safe
    · rw [hsched, hcounter]
      exact hs.ordered
  have hall : s.missExpiry.finishCapture.reachedCount ≤ s.sched.active.length := by
    rw [State.reachedCount, hsched]
    exact List.countP_le_length
  have hfired := State.fireHeads_headReached s.sched.active.length hrun hsound hall
  have hfiredtb : (State.fireHeads s.sched.active.length s.missExpiry.finishCapture).tb = s.completeTick.tb :=
    ((scheduleOnly_fireHeads s.sched.active.length s.missExpiry.finishCapture).tb.trans htb).trans
      (completeTick_tb s).symm
  unfold State.headReached at hfired ⊢
  rw [completeTick_active, ← hfiredtb]
  exact hfired

/-! ### The time value of a tick (R2, R14) -/

theorem Timebase.lockOn_counter (t : Timebase) (e : Int) : (t.lockOn e).tb.counter = t.counter := by
  unfold Timebase.lockOn
  split <;> rfl

theorem Timebase.badPulse_counter (t : Timebase) (e : Int) : (t.badPulse e).tb.counter = t.counter := by
  unfold Timebase.badPulse
  split
  · split <;> rfl
  · rfl

theorem Timebase.expireFirst_counter (t : Timebase) (b : Bool) : (t.expireFirst b).tb.counter = t.counter := by
  unfold Timebase.expireFirst
  split
  · exact t.expire_counter
  · rfl

/-- A pulse that makes no step leaves the time value. -/
theorem Timebase.pulse_counter {t : Timebase} (h : t.pulse.step = none) :
    t.pulse.effect.tb.counter = t.counter := by
  unfold Timebase.pulse at h ⊢
  simp only at h ⊢
  split at h
  · next hslew =>
    rw [if_pos hslew]
    exact Timebase.lockOn_counter _ _
  · next hslew =>
    split at h
    · cases h
    · next hstep =>
      rw [if_neg hslew, if_neg hstep]
      exact Timebase.badPulse_counter _ _

/-- A tick without a step takes the time value its advance gives. -/
theorem Timebase.tick_counter {t : Timebase} {sync first : Bool} (h : (t.tick sync first).step = none) :
    (t.tick sync first).effect.tb.counter = t.counter + t.advance.amount := by
  unfold Timebase.tick at h ⊢
  simp only at h ⊢
  split at h
  · next hs =>
    rw [if_pos hs]
    exact (Timebase.pulse_counter h).trans (Timebase.expireFirst_counter _ _)
  · next hs =>
    rw [if_neg hs]
    rfl

theorem Advance.amount_le (a : Advance) : a.amount.toNat ≤ 2 := by cases a <;> decide

theorem Timebase.adjust_counter (t : Timebase) : t.adjust.counter = t.counter := by
  unfold Timebase.adjust
  split <;> rfl

theorem State.slewAdjust_counter (s : State) : s.slewAdjust.tb.counter = s.tb.counter := by
  rcases s.whenTickDue_cases s.tb.slewDue fun t => t.setTb t.tb.adjust with ⟨-, -, e⟩ | ⟨-, e⟩
  · exact (congrArg (fun t : State => t.tb.counter) e).trans s.tb.adjust_counter
  · exact congrArg (fun t : State => t.tb.counter) e

/-! ### The entries that a step reaches (R137) -/

theorem State.takeAtStep_sched (v : Time) (s : State) (e : Entry) :
    (State.takeAtStep v s e).sched = s.sched.reentered s.tb.counter (e.afterDue s.tb.counter).2 := by
  unfold State.takeAtStep
  split
  · exact State.fireEntry_sched _ _ _ _ _
  · cases e.late with
    | fire => exact State.fireEntry_sched _ _ _ _ _
    | skip => exact State.skipEntry_sched _ _ _

theorem State.takeAtStep_only (v : Time) (s : State) (e : Entry) : ScheduleOnly s (State.takeAtStep v s e) := by
  unfold State.takeAtStep
  split
  · exact scheduleOnly_fireEntry _ _ _ _ _
  · cases e.late with
    | fire => exact scheduleOnly_fireEntry _ _ _ _ _
    | skip => exact scheduleOnly_skipEntry _ _ _

theorem Schedule.length_reentered (x : Schedule) (now : Time) (e : Option Entry) :
    (x.reentered now e).active.length ≤ x.active.length + 1 := by
  cases e with
  | none => exact Nat.le_succ _
  | some e => exact (length_insertActive _ _ _).le

/-- Entries taken one after another, with room for all of them, keep the list in its bounds and in order. -/
theorem foldl_takeAtStep_sound (v : Time) (due : List Active) {s : State} (hs : ScheduleSafe s.sched)
    (hd : ∀ a ∈ due, a.entry.inRange) (hl : s.sched.active.length + due.length ≤ 256) :
    ScheduleSafe (due.foldl (fun t a => t.takeAtStep v a.entry) s).sched ∧
    (s.sched.Ordered s.tb.counter →
      (due.foldl (fun t a => t.takeAtStep v a.entry) s).sched.Ordered
        (due.foldl (fun t a => t.takeAtStep v a.entry) s).tb.counter) := by
  induction due generalizing s with
  | nil => exact ⟨hs, id⟩
  | cons a due ih =>
    rw [List.length_cons] at hl
    have hrange := hd a List.mem_cons_self
    have hsched := State.takeAtStep_sched v s a.entry
    have htb : (State.takeAtStep v s a.entry).tb = s.tb :=
      (State.takeAtStep_only v s a.entry).tb
    have hlen := s.sched.length_reentered s.tb.counter (a.entry.afterDue s.tb.counter).2
    have hnext := ih (s := State.takeAtStep v s a.entry)
      (by rw [hsched]; exact hs.reentered (by omega) hrange)
      (fun b hb => hd b (List.mem_cons_of_mem a hb)) (by rw [hsched]; omega)
    refine ⟨hnext.1, fun ho => hnext.2 ?_⟩
    rw [hsched, htb]
    exact ho.reentered hrange

theorem stepEntries_sound {s : State} {now : Time} (hs : ScheduleSafe s.sched) (v : Time) :
    ScheduleSafe (s.stepEntries v).sched ∧
    (s.sched.Ordered now → (∀ a ∈ s.sched.active, reached now a.entry.due = false) →
      (s.stepEntries v).sched.Ordered (s.stepEntries v).tb.counter) := by
  have hlen : (s.sched.active.filter fun a => !reached s.tb.counter a.entry.due).length +
      (s.sched.active.filter fun a => reached s.tb.counter a.entry.due).length ≤ 256 := by
    have h := List.length_eq_length_filter_add (l := s.sched.active) fun a => reached s.tb.counter a.entry.due
    have := hs.active_le
    omega
  have hrest := hs.sublist (List.filter_sublist (p := fun a => !reached s.tb.counter a.entry.due))
  have htaken := foldl_takeAtStep_sound v (s.sched.active.filter fun a => reached s.tb.counter a.entry.due)
    (s := s.setSched { s.sched with active := s.sched.active.filter fun a => !reached s.tb.counter a.entry.due })
    hrest (fun a ha => hs.active_range a (List.mem_of_mem_filter ha)) hlen
  exact ⟨htaken.1, fun ho ha => htaken.2
    ⟨pairwise_precedes_rest ha ho.precedes, fun a h => ho.given a (List.mem_of_mem_filter h)⟩⟩

/-! ### The tick -/

theorem State.ScheduleSound.makeTick {s : State} (hs : ScheduleSafe s.sched) (samples : BitVec 64)
    (sync first : Bool) : ScheduleSafe (s.makeTick samples sync first).sched ∧
    (s.sched.Ordered s.tb.counter → s.headReached = false →
      (s.makeTick samples sync first).sched.Ordered (s.makeTick samples sync first).tb.counter) := by
  have hsched : (s.timebaseTick sync first).sched = s.sched :=
    (timebaseTick_frame s sync first).keeps (P := fun t => t.sched = s.sched) fun _ _ _ _ => rfl
  have htb : (s.timebaseTick sync first).tb = (s.slewAdjust.tb.tick sync first).effect.tb := by
    obtain ⟨_, _, _, e⟩ := s.slewAdjust.timebaseEffect_frame (s.slewAdjust.tb.tick sync first).effect
    unfold State.timebaseTick
    rw [e]
  rw [makeTick_eq]
  cases hstep : (s.slewAdjust.tb.tick sync first).step with
  | none =>
    refine ⟨hsched.symm ▸ hs, fun ho hh => ?_⟩
    have hnow : (s.timebaseTick sync first).tb.counter = s.tb.counter + s.slewAdjust.tb.advance.amount := by
      rw [htb, Timebase.tick_counter hstep, s.slewAdjust_counter]
    have hactive : ((s.timebaseTick sync first).blockTick samples none
        (s.slewAdjust.tb.tick sync first).before).sched = s.sched := hsched
    rw [hactive]
    refine (?_ : s.sched.Ordered (s.timebaseTick sync first).tb.counter)
    rw [hnow]
    exact ⟨pairwise_precedes_advance (Advance.amount_le _) (ho.ahead hh) ho.precedes, ho.given⟩
  | some a =>
    have hnoticed : ((s.timebaseTick sync first).tickLines samples (some a)).countSlots.countAges.runNotice.sched
        = s.sched := hsched
    have h := stepEntries_sound
      (s := ((s.timebaseTick sync first).tickLines samples (some a)).countSlots.countAges.runNotice)
      (now := s.tb.counter) (hnoticed.symm ▸ hs) (s.slewAdjust.tb.tick sync first).before
    rw [hnoticed] at h
    exact ⟨h.1, fun ho hh => h.2 ho (ho.ahead hh)⟩

/-! ### Every step -/

theorem PartMove.scheduleSafe {more : Prop} {s t : State} (h : PartMove more s t) (hs : ScheduleSafe s.sched) :
    ScheduleSafe t.sched := by
  cases h with
  | preset _ _ _ => exact hs
  | run _ _ => exact hs
  | halt _ => exact (reflexOnly_halt s).keeps (P := fun t => ScheduleSafe t.sched) fun _ _ _ _ => hs
  | softReset _ => exact scheduleSafe_reset
  | deviceReset _ _ => exact scheduleSafe_reset

theorem Move.scheduleSafe {more : Prop} {s t : State} (h : Move more s t) (hs : ScheduleSafe s.sched) :
    ScheduleSafe t.sched := by
  cases h with
  | pool h => exact h.keeps (P := fun t => ScheduleSafe t.sched) fun _ _ _ _ => hs
  | reflex h => exact h.keeps (P := fun t => ScheduleSafe t.sched) fun _ _ _ _ => hs
  | schedule h => exact hs.move h
  | timebase h => exact h.keeps (P := fun t => ScheduleSafe t.sched) fun _ => hs
  | input h => exact h.keeps (P := fun t => ScheduleSafe t.sched) fun _ => hs
  | output h => exact h.keeps (P := fun t => ScheduleSafe t.sched) fun _ _ => hs
  | part h => exact h.scheduleSafe hs
  | offer => exact hs
  | marks => exact hs
  | window => exact hs

theorem Schedule.Ordered.empty {x : Schedule} (now : Time) (h : x.active = []) : x.Ordered now :=
  ⟨h ▸ List.Pairwise.nil, by rw [h]; exact nofun⟩

/-- The order of the active list rests on nothing of the Schedule Unit but the list and the next number. -/
theorem Schedule.Ordered.of_eq {x y : Schedule} {now : Time} (h : x.Ordered now) (ha : y.active = x.active)
    (hn : x.nextOrder ≤ y.nextOrder) : y.Ordered now :=
  ⟨ha ▸ h.precedes, by rw [ha]; exact fun a hm => (h.given a hm).trans_le hn⟩

theorem Schedule.Ordered.move {more : Prop} {s t : State} (h : ScheduleMove more s t)
    (hs : ScheduleSafe s.sched) (ho : s.sched.Ordered s.tb.counter) : t.sched.Ordered s.tb.counter := by
  cases h with
  | fire a rest _ ha =>
    rw [State.fireEntry_sched]
    exact (ho.sublist (ha ▸ List.sublist_cons_self a rest)).reentered
      (hs.active_range a (ha ▸ List.mem_cons_self))
  | start _ => exact ho.of_eq s.startApplying_active.1 s.startApplying_active.2.ge
  | finish _ =>
    rw [State.finishCommit_sched]
    exact ho.of_eq rfl (Nat.le_refl _)
  | stage _ o _ _ _ => exact ho.of_eq rfl (Nat.le_refl _)
  | discard _ _ => exact ho.of_eq rfl (Nat.le_refl _)
  | arm _ _ => exact ho.of_eq rfl (Nat.le_refl _)
  | abort _ _ => exact ho.of_eq rfl (Nat.le_refl _)
  | settings _ cat sarg => exact ho.of_eq rfl (Nat.le_refl _)
  | insert _ e _ _ hr => exact (ho.enter hr).of_eq rfl (Nat.le_refl _)
  | late _ e hop _ =>
    have hkept : Schedule.Ordered { s.sched with nextOrder := s.sched.nextOrder + 1 } s.tb.counter :=
      ho.of_eq rfl (Nat.le_succ _)
    have hfired : (s.fireLate e).sched = _ := State.fireEntry_sched _ e true false _
    have hin := hkept.reentered (hs.staged_range _ (State.nextOp_eq_some hop).2.1 : e.inRange)
    exact Schedule.Ordered.of_eq (hfired ▸ hin : (s.fireLate e).sched.Ordered s.tb.counter) rfl (Nat.le_refl _)
  | remove _ o keep _ hk => exact (ho.sublist hk).of_eq rfl (Nat.le_refl _)
  | refuse _ o why _ => exact ho.of_eq rfl (Nat.le_refl _)

/-- No move of the Timebase but PRESET, with an empty list, changes the time value. -/
theorem TimebaseMove.counter {more : Prop} {s t : State} (h : TimebaseMove more s t) :
    t.tb.counter = s.tb.counter := by
  cases h with
  | expire _ => exact s.tb.expire_counter
  | stop _ _ =>
    refine (?_ : s.tb.stopped.counter = _)
    unfold Timebase.stopped
    split <;> rfl
  | adjust _ _ => exact s.tb.adjust_counter
  | switches _ a b c =>
    refine (?_ : (s.tb.setSwitches a b c).counter = _)
    unfold Timebase.setSwitches
    simp only
    split <;> rfl
  | settings _ t hr =>
    obtain ⟨⟨_, _, _, _, _, _, _, _, rfl⟩, -⟩ := hr
    rfl

theorem PartMove.ordered {more : Prop} {s t : State} (h : PartMove more s t)
    (ho : s.sched.Ordered s.tb.counter) : t.sched.Ordered t.tb.counter := by
  cases h with
  | preset _ _ ha => exact .empty _ ha
  | run _ _ => exact ho
  | halt _ =>
    exact (reflexOnly_halt s).keeps (P := fun t => t.sched.Ordered t.tb.counter) fun _ _ _ _ => ho
  | softReset _ => exact .empty _ rfl
  | deviceReset _ _ => exact .empty _ rfl

theorem Move.ordered {more : Prop} {s t : State} (h : Move more s t) (hs : s.ScheduleSound) :
    t.sched.Ordered t.tb.counter := by
  have ho := hs.ordered
  cases h with
  | pool h => exact h.keeps (P := fun t => t.sched.Ordered t.tb.counter) fun _ _ _ _ => ho
  | reflex h => exact h.keeps (P := fun t => t.sched.Ordered t.tb.counter) fun _ _ _ _ => ho
  | schedule h => exact h.only.tb.symm ▸ ho.move h hs.safe
  | timebase h =>
    rw [h.counter]
    exact h.keeps (P := fun t => t.sched.Ordered s.tb.counter) fun _ => ho
  | input h => exact h.keeps (P := fun t => t.sched.Ordered t.tb.counter) fun _ => ho
  | output h => exact h.keeps (P := fun t => t.sched.Ordered t.tb.counter) fun _ _ => ho
  | part h => exact h.ordered ho
  | offer => exact ho
  | marks => exact ho
  | window => exact ho

theorem State.started_sched_counter (s : State) (a b c : Bool) :
    (s.started a b c).sched = s.sched ∧ (s.started a b c).tb.counter = s.tb.counter := by
  unfold State.started State.withSwitches Timebase.setSwitches
  simp only
  split <;> exact ⟨rfl, rfl⟩

theorem State.ScheduleSound.step {s t : State} (hs : s.ScheduleSound) (h : step s = .next t) :
    t.ScheduleSound :=
  step_keeps (P := State.ScheduleSound) (fun _ _ hs => ⟨hs.safe, hs.ordered⟩)
    (fun _ _ hm hs => ⟨hm.scheduleSafe hs.safe, hm.ordered hs⟩)
    (fun s a b c _ _ hs => by
      obtain ⟨hx, hc⟩ := s.started_sched_counter a b c
      exact ⟨hx.symm ▸ hs.safe, by rw [hx, hc]; exact hs.ordered⟩)
    (fun s samples sync first hrun hs hc => by
      have h := State.ScheduleSound.makeTick hc.safe samples sync first
      exact ⟨h.1, h.2 hc.ordered (completeTick_headReached hrun hs)⟩) hs h

/-- Settles O60: the bounds by themselves, and with them the order. -/
theorem stepKeepsTheScheduleOrdered : Obligations.StepKeepsTheScheduleOrdered := by
  refine ⟨fun s t hs h => ?_, fun s t hs ho h => ?_⟩
  · exact step_keeps (P := fun s => ScheduleSafe s.sched) (fun _ _ hs => hs) (fun _ _ hm hs => hm.scheduleSafe hs)
      (fun s a b c _ _ hs => (s.started_sched_counter a b c).1.symm ▸ hs)
      (fun s samples sync first _ _ hc => (State.ScheduleSound.makeTick hc samples sync first).1) hs h
  · have hsound : s.ScheduleSound := ⟨hs, (scheduleOrdered_iff_ordered s).1 ho⟩
    exact (scheduleOrdered_iff_ordered t).2 (hsound.step h).ordered

end Sys2Proof.Machine
end

section
/-!
PROOFS. The state after device reset, and what all host accesses share: the claims they find taken, the
command that a write spells. Settles O53, O3, O6, O9 and O8.
-/
namespace Sys2Proof.Machine
-- Declarations in order: a worker that waits for the kernel holds 1 GiB of the check's memory.
set_option Elab.async false

/-! ### Device reset -/

theorem modeSafe_reset : ModeSafe State.reset :=
  (modeSafe_iff _).2 ⟨modeLines_reset rfl, fun _ => slots_reset, nofun, nofun⟩

/-- Settles O53, by the part of each unit. -/
theorem resetStateIsSafe : Obligations.ResetStateIsSafe := by
  refine ⟨timebaseSafe_reset, lineSafe_reset, modeSafe_reset, poolSafe_reset, fun g => ?_, List.Pairwise.nil,
    fun g => ?_, outputsSafe_reset, scheduleSafe_reset, ?_⟩
  · obtain ⟨hq, hx⟩ := reset_queue_group g
    unfold State.currentRun
    rw [hq, hx]
    exact queuesOrdered_reset g
  · obtain ⟨hq, hx⟩ := reset_queue_group g
    rw [hq, hx]
    exact groupSafe_reset g
  · exact (scheduleOrdered_iff_ordered _).2 (.empty _ rfl)

/-- Settles O3: the map is read at each of its addresses. -/
theorem resetReadsAsTheMapGives : Obligations.ResetReadsAsTheMapGives := by
  unfold Obligations.ResetReadsAsTheMapGives
  decide +kernel

/-! ### The claims of happenings that are not ticks (R55) -/

theorem State.settled_settled (s : State) : s.settled.settled = s.settled :=
  s.settled.settled_eq s.settled_settles

/-- The settling is some takings of a claim. -/
theorem State.takeEventClaims_runCommands (n : Nat) (s : State) :
    ∃ k, State.takeEventClaims n s = s.runCommands (List.replicate k .claim) := by
  induction n generalizing s with
  | zero => exact ⟨0, rfl⟩
  | succ n ih =>
    unfold State.takeEventClaims
    split
    · obtain ⟨k, hk⟩ := ih s.takeClaim
      exact ⟨k + 1, hk⟩
    · exact ⟨0, rfl⟩

theorem hostWrite_settled (a : Addr) (op : State → Except RefCode State) {s : State} (h : s.inReset = false) :
    hostWrite a op s = hostWrite a op s.settled := by
  rw [hostWrite_running a op s h, hostWrite_running a op s.settled (s.settled_inReset.trans h),
    State.settled_settled]

/-- What its owner does with a host command; `.ok` for a command that is no host write. -/
def hostOp : Instr → State → Except RefCode State
  | .start a b c => startOp a b c
  | .stop a b c => stopOp a b c
  | .preset a b c => presetOp a b c
  | .switches a b c => switchesOp a b c
  | .arm i => armOp i
  | .disarm i => disarmOp i
  | .clear i => clearOp i
  | .cancel => cancelOp
  | .clearAll => clearAllOp
  | .discard => discardOp
  | .commitNow => commitNowOp
  | .commitAt => commitAtOp
  | .abort => abortOp
  | .acknowledge g w => ackOp g w
  | .flush w => flushOp w
  | .delenWrite w => delenOp w
  | .hostset half w => fun s => .ok (s.hostClaim true half w)
  | .hostclr half w => fun s => .ok (s.hostClaim false half w)
  | .freeze => freezeOp
  | .unfreeze => unfreezeOp
  | .read => readOp
  | .write => writeOp
  | .append => appendOp
  | .run => runOp
  | .halt => haltOp
  | .softReset => softResetOp
  | .errflagClear w => errflagOp w
  | .registerWrite a w => addressOp a w
  | _ => .ok

/-- A command that a write spells is a host write to the address of that write. -/
theorem exec_hostWrite {c : Instr} {a : Addr} {w : Word} (h : writeOfCommand c = some (a, w)) (s : State) :
    exec c s = hostWrite a (hostOp c) s := by
  cases c <;> cases h <;> rfl

/-- Settles O6: every access begins with the settling, which a second one leaves. -/
theorem hostAccessFindsEventClaimsTaken : Obligations.HostAccessFindsEventClaimsTaken := by
  intro s
  refine ⟨s.settled_settles, State.takeEventClaims_runCommands _ s, s.settled_eq, fun a => ?_, fun hr =>
    ⟨?_, fun c a w hc => ?_⟩⟩
  · unfold State.readAddr
    rw [State.settled_inReset, State.settled_settled]
  · change execTimeRead s = execTimeRead s.settled
    unfold execTimeRead
    simp only [State.settled_inReset, State.settled_settled, hr]
    rfl
  · rw [exec_hostWrite hc, exec_hostWrite hc, ← hostWrite_settled a _ hr]

/-- The read of a register by its address. -/
theorem State.readAddr_eq (s : State) (a : Addr) (r : Register) (ha : r.addr = a) (h : s.inReset = false) :
    s.readAddr a = s.settled.readRegister r := ha ▸ s.readAddr_addr r h

/-! ### The command that a write spells (Section 10.2) -/

/-- A field of a word, as a number. -/
theorem toNat_field (w : Word) (k n : Nat) : (w.extractLsb' k n).toNat = w.toNat / 2 ^ k % 2 ^ n := by
  rw [BitVec.extractLsb'_toNat, Nat.shiftRight_eq_div_pow]

theorem addressOp_addr (r : Register) (w : Word) : addressOp r.addr w = registerOp r w := by
  funext s
  simp only [addressOp, Register.ofAddr_addr]

/-- A command with the work of a register's owner is a host write to that register. -/
theorem exec_eq_hostWrite {c : Instr} (r : Register) {w w' : Word} (hc : writeOfCommand c = some (r.addr, w'))
    (h : ∀ t, registerOp r w t = hostOp c t) (s : State) : exec c s = hostWrite r.addr (registerOp r w) s := by
  rw [exec_hostWrite hc, funext h]

theorem exec_registerWrite_addr (r : Register) (w : Word) (s : State) :
    exec (.registerWrite r.addr w) s = hostWrite r.addr (registerOp r w) s :=
  exec_eq_hostWrite r rfl (fun _ => by rw [← addressOp_addr]; rfl) s

/-- The command that a write to a register spells does what the register's owner does with the write (R187). -/
theorem exec_commandOfWrite_addr (r : Register) (w : Word) (s : State) :
    exec (commandOfWrite r.addr w) s = hostWrite r.addr (registerOp r w) s := by
  unfold commandOfWrite
  rw [Register.ofAddr_addr]
  cases r
  case mode =>
    simp only
    split
    case h_3 => exact exec_registerWrite_addr .mode w s
    all_goals next h => exact exec_eq_hostWrite .mode rfl (fun t => by simp only [registerOp, modeOp, h]; rfl) s
  case softrst =>
    simp only
    split
    · next h => exact exec_eq_hostWrite .softrst rfl (fun t => by rw [h]; rfl) s
    · exact exec_registerWrite_addr .softrst w s
  case tbctl =>
    simp only
    split
    case h_4 h1 h2 h3 => exact exec_eq_hostWrite .tbctl rfl (fun t => by simp only [registerOp, tbctlOp]; rfl) s
    all_goals next h => exact exec_eq_hostWrite .tbctl rfl (fun t => by simp only [registerOp, tbctlOp, h]; rfl) s
  case frzctl =>
    simp only
    split
    case h_3 => exact exec_registerWrite_addr .frzctl w s
    all_goals next h => exact exec_eq_hostWrite .frzctl rfl (fun t => by simp only [registerOp, frzctlOp, h]; rfl) s
  case rfxcmd =>
    simp only
    split
    case h_4 => exact exec_registerWrite_addr .rfxcmd w s
    all_goals next h => exact exec_eq_hostWrite .rfxcmd rfl (fun t => by simp only [registerOp, rfxcmdOp, h]; rfl) s
  case scmd =>
    simp only
    split
    case h_7 => exact exec_registerWrite_addr .scmd w s
    all_goals next h => exact exec_eq_hostWrite .scmd rfl (fun t => by simp only [registerOp, scmdOp, h]; rfl) s
  case tcmd =>
    simp only
    split
    case h_4 => exact exec_registerWrite_addr .tcmd w s
    all_goals next h => exact exec_eq_hostWrite .tcmd rfl (fun t => by simp only [registerOp, tcmdOp, h]; rfl) s
  case errflag => exact exec_eq_hostWrite .errflag rfl (fun _ => rfl) s
  case ack g => exact exec_eq_hostWrite (.ack g) rfl (fun _ => rfl) s
  case gflush => exact exec_eq_hostWrite .gflush rfl (fun _ => rfl) s
  case delen => exact exec_eq_hostWrite .delen rfl (fun _ => rfl) s
  case hostset i => exact exec_eq_hostWrite (.hostset i) rfl (fun _ => rfl) s
  case hostclr i => exact exec_eq_hostWrite (.hostclr i) rfl (fun _ => rfl) s
  all_goals exact exec_registerWrite_addr _ w s

theorem commandOfWrite_unmapped {a : Addr} (h : Register.ofAddr a = none) (w : Word) :
    commandOfWrite a w = .registerWrite a w := by
  unfold commandOfWrite
  rw [h]

theorem exec_registerWrite_eq_commandOfWrite (a : Addr) (w : Word) (s : State) :
    exec (.registerWrite a w) s = exec (commandOfWrite a w) s := by
  cases h : Register.ofAddr a with
  | none => rw [commandOfWrite_unmapped h]
  | some r => rw [← Register.addr_of_ofAddr h, exec_registerWrite_addr, exec_commandOfWrite_addr]

/-- The registers of type R (Section 10.2). -/
def readOnly : Register → Bool
  | .id | .refcode | .next | .win _ | .gattn | .gpres | .gstat _ | .tbstat | .time _ | .epoch | .lasterr
  | .inlvl _ | .insup _ | .outdrv _ | .outclm _ | .rfxst _ | .sstat | .scount => true
  | _ => false

theorem registerOp_readOnly {r : Register} (h : readOnly r = true) (w : Word) (s : State) :
    registerOp r w s = .error .readonly := by
  cases r
  case id | refcode | next | win | gattn | gpres | gstat | tbstat | time | epoch | lasterr | inlvl | insup
    | outdrv | outclm | rfxst | sstat | scount => rfl
  all_goals cases h

/-- The addresses of type R in the map. -/
theorem exists_readOnly_of_addr : ∀ a : Addr,
    a ∈ [0x00#8, 0x05, 0x06, 0x1C, 0x1D, 0x31, 0x32, 0x33, 0x34, 0x35, 0x3C, 0x62, 0x63] ∨
      (0x08 ≤ a ∧ a ≤ 0x0F) ∨ (0x20 ≤ a ∧ a ≤ 0x28) ∨ (0x40 ≤ a ∧ a ≤ 0x4B) ∨ (0x59 ≤ a ∧ a ≤ 0x5C) →
    (Register.ofAddr a).any readOnly = true := by decide +kernel

/-- The addresses that the map does not list. -/
theorem ofAddr_eq_none_of_gap : ∀ a : Addr,
    (0x1E ≤ a ∧ a ≤ 0x1F) ∨ (0x29 ≤ a ∧ a ≤ 0x2F) ∨ (0x51 ≤ a ∧ a ≤ 0x57) ∨ (0x5D ≤ a ∧ a ≤ 0x5F) ∨
      (0x67 ≤ a ∧ a ≤ 0x6F) ∨ (0x73 ≤ a ∧ a ≤ 0x7F) ∨ 0x90 ≤ a →
    Register.ofAddr a = none := by decide +kernel

/-- The codes of the command registers that spell no command (R98, R118, R152, R170, R174, R195). -/
theorem commandRegister_codes (w : Word) (s : State) :
    (w.toNat / 2 % 4 = 0 → modeOp w s = .ok s) ∧ (w.toNat / 2 % 4 = 3 → modeOp w s = .error .range) ∧
    (w.toNat = 0 → softrstOp w s = .ok s) ∧ (1 < w.toNat → softrstOp w s = .error .range) ∧
    (w.toNat % 4 = 0 → frzctlOp w s = .ok s) ∧ (w.toNat % 4 = 3 → frzctlOp w s = .error .range) ∧
    (w.toNat / 256 % 4 = 0 → rfxcmdOp w s = .error .range) ∧
    (w.toNat % 8 = 0 ∨ w.toNat % 8 = 7 → scmdOp w s = .error .range) ∧
    (w.toNat % 4 = 0 → tcmdOp w s = .error .range) := by
  have h12 : (w.extractLsb' 1 2).toNat = w.toNat / 2 % 4 := toNat_field w 1 2
  have h02 : (w.extractLsb' 0 2).toNat = w.toNat % 4 := by rw [toNat_field, pow_zero, Nat.div_one]; rfl
  have h82 : (w.extractLsb' 8 2).toNat = w.toNat / 256 % 4 := toNat_field w 8 2
  have h03 : (w.extractLsb' 0 3).toNat = w.toNat % 8 := by rw [toNat_field, pow_zero, Nat.div_one]; rfl
  refine ⟨fun h => ?_, fun h => ?_, fun h => ?_, fun h => ?_, fun h => ?_, fun h => ?_, fun h => ?_, fun h => ?_,
    fun h => ?_⟩
  · simp only [modeOp, h12, h]
  · simp only [modeOp, h12, h]
  · exact if_pos (BitVec.eq_of_toNat_eq h)
  · have h0 : w ≠ 0 := by rintro rfl; exact absurd h (by decide)
    have h1 : w ≠ 1 := by rintro rfl; exact absurd h (by decide)
    simp only [softrstOp, h0, h1, if_false]
  · simp only [frzctlOp, h02, h]
  · simp only [frzctlOp, h02, h]
  · simp only [rfxcmdOp, h82, h]
  · rcases h with h | h
    · simp only [scmdOp, h03, h]
    · simp only [scmdOp, h03, h]
  · simp only [tcmdOp, h02, h]

/-- Settles O8. -/
theorem registerWritesAreTakenByTheirAddress : Obligations.RegisterWritesAreTakenByTheirAddress := by
  intro a w s
  obtain ⟨hmode0, hmode3, hrst0, hrst, hfrz0, hfrz3, hrfx, hscmd, htcmd⟩ := commandRegister_codes w s.settled
  refine ⟨exec_registerWrite_eq_commandOfWrite a w s, fun hr ha => ?_, fun hr ha => ?_, fun hr =>
    ⟨fun h => ?_, fun h => ?_, fun h => ?_, fun h => ?_, fun h => ?_, fun h => ?_, fun h => ?_, fun h => ?_,
      fun h => ?_⟩⟩
  · have hany := exists_readOnly_of_addr a ha
    cases hreg : Register.ofAddr a with
    | none => rw [hreg] at hany; cases hany
    | some r =>
      rw [hreg] at hany
      rw [← Register.addr_of_ofAddr hreg]
      exact exec_registerWrite_readonly hr (registerOp_readOnly hany w _)
  · have hnone := ofAddr_eq_none_of_gap a ha
    constructor
    · exact hostWrite_error hr (by simp only [addressOp, hnone])
    · simp only [State.readAddr, hr, hnone]
      rfl
  · exact exec_registerWrite_taken (r := .mode) hr (hmode0 h)
  · exact exec_registerWrite_refused (r := .mode) hr (hmode3 h)
  · exact exec_registerWrite_taken (r := .softrst) hr (hrst0 h)
  · exact exec_registerWrite_refused (r := .softrst) hr (hrst h)
  · exact exec_registerWrite_taken (r := .frzctl) hr (hfrz0 h)
  · exact exec_registerWrite_refused (r := .frzctl) hr (hfrz3 h)
  · exact exec_registerWrite_refused (r := .rfxcmd) hr (hrfx h)
  · exact exec_registerWrite_refused (r := .scmd) hr (hscmd h)
  · exact exec_registerWrite_refused (r := .tcmd) hr (htcmd h)

/-! ### The round trip (Section 10.2) -/

/-- The registers whose every word is the command of a row, with the word as its operand. -/
theorem commandOfWrite_operand (w : Word) :
    (∀ g, commandOfWrite (Register.ack g).addr w = .acknowledge g w) ∧
    (∀ i, commandOfWrite (Register.hostset i).addr w = .hostset i w) ∧
    (∀ i, commandOfWrite (Register.hostclr i).addr w = .hostclr i w) ∧
    commandOfWrite Register.gflush.addr w = .flush w ∧ commandOfWrite Register.delen.addr w = .delenWrite w ∧
    commandOfWrite Register.errflag.addr w = .errflagClear w := by
  refine ⟨fun g => ?_, fun i => ?_, fun i => ?_, ?_, ?_, ?_⟩
  all_goals unfold commandOfWrite; rw [Register.ofAddr_addr]

/-- The words of TBCTL spell their commands with the switches. -/
theorem commandOfWrite_tbctl : ∀ a b c : Bool,
    commandOfWrite 0x30 (1 ||| switchBits a b c) = .start a b c ∧
    commandOfWrite 0x30 (2 ||| switchBits a b c) = .stop a b c ∧
    commandOfWrite 0x30 (3 ||| switchBits a b c) = .preset a b c ∧
    commandOfWrite 0x30 (switchBits a b c) = .switches a b c := by decide +kernel

/-- The words of RFXCMD spell their commands with the slot. -/
theorem commandOfWrite_rfxcmd : ∀ i : SlotNo,
    commandOfWrite 0x58 (BitVec.ofNat 16 (0x100 + i)) = .arm i ∧
    commandOfWrite 0x58 (BitVec.ofNat 16 (0x200 + i)) = .disarm i ∧
    commandOfWrite 0x58 (BitVec.ofNat 16 (0x300 + i)) = .clear i := by decide +kernel

/-- Settles O9. -/
theorem hostWriteRoundTrip : Obligations.HostWriteRoundTrip := by
  intro c a w hwf h
  obtain ⟨hack, hset, hclr, hflush, hdelen, herr⟩ := commandOfWrite_operand w
  cases c <;> cases h
  case start a b c => exact (commandOfWrite_tbctl a b c).1
  case stop a b c => exact (commandOfWrite_tbctl a b c).2.1
  case preset a b c => exact (commandOfWrite_tbctl a b c).2.2.1
  case switches a b c => exact (commandOfWrite_tbctl a b c).2.2.2
  case arm i => exact (commandOfWrite_rfxcmd i).1
  case disarm i => exact (commandOfWrite_rfxcmd i).2.1
  case clear i => exact (commandOfWrite_rfxcmd i).2.2
  case acknowledge g => exact hack g
  case flush => exact hflush
  case delenWrite => exact hdelen
  case hostset i => exact hset i
  case hostclr i => exact hclr i
  case errflagClear => exact herr
  case registerWrite => exact eq_of_beq hwf
  all_goals decide +kernel

end Sys2Proof.Machine
end

section
/-!
PROOFS. A host write that is taken leaves REFCODE and the flag REFUSED (R181, R182): every work of a unit does,
and only the refusal itself and the resets do not. Settles O7.
-/
namespace Sys2Proof.Machine
-- Declarations in order: a worker that waits for the kernel holds 1 GiB of the check's memory.
set_option Elab.async false

/-- From `s` to `t` no host write was refused, as REFCODE and REFUSED tell. -/
structure Unrefused (s t : State) : Prop where
  code : t.refCode = s.refCode
  addr : t.refAddr = s.refAddr
  flag : t.errFlags.getLsbD 0 = true → s.errFlags.getLsbD 0 = true

namespace Unrefused

theorem refl (s : State) : Unrefused s s := ⟨rfl, rfl, id⟩

theorem trans {s t u : State} (h : Unrefused s t) (k : Unrefused t u) : Unrefused s u :=
  ⟨k.code.trans h.code, k.addr.trans h.addr, fun hu => h.flag (k.flag hu)⟩

/-- Work behind an update of other fields. -/
theorem after {s t u : State} (k : Unrefused t u) (h : Unrefused s t) : Unrefused s u := h.trans k

/-! ### Flags, records and claims -/

theorem setFlag (s : State) {f : ErrFlag} (hf : f ≠ .refused) : Unrefused s (s.setFlag f) :=
  ⟨rfl, rfl, fun h => (getLsbD_or_flag _ hf).symm.trans h⟩

theorem setFlagIf (s : State) (c : Bool) {f : ErrFlag} (hf : f ≠ .refused) : Unrefused s (s.setFlagIf c f) := by
  cases c
  · exact refl s
  · exact setFlag s hf

theorem takeRecord (s : State) (g : GroupNo) (r : Record) : Unrefused s (s.takeRecord g r) := by
  obtain ⟨qs, gs, h | h⟩ := s.takeRecord_frame g r
  · rw [h]; exact ⟨rfl, rfl, id⟩
  · rw [h]; exact ⟨rfl, rfl, fun hl => (getLsbD_or_flag _ (f := .loss) nofun).symm.trans hl⟩

theorem takeClaim (s : State) : Unrefused s s.takeClaim := by
  unfold State.takeClaim
  split
  · exact refl s
  · next c cs _ => exact (takeRecord { s with claims := cs } _ _).after ⟨rfl, rfl, id⟩

theorem takeEventClaims (n : Nat) (s : State) : Unrefused s (State.takeEventClaims n s) := by
  induction n generalizing s with
  | zero => exact refl s
  | succ n ih =>
    unfold State.takeEventClaims
    split
    · exact (takeClaim s).trans (ih _)
    · exact refl s

theorem settled (s : State) : Unrefused s s.settled := takeEventClaims _ s

/-! ### Slots and output lines -/

theorem hostClaim (s : State) (v : Bool) (half : Fin 2) (w : Word) : Unrefused s (s.hostClaim v half w) :=
  (setFlagIf _ _ (f := .blocked) nofun).after ⟨rfl, rfl, id⟩

theorem scheduleClaim (s : State) (a : Action) (m : BitVec 32) : Unrefused s (s.scheduleClaim a m) :=
  (setFlagIf _ _ (f := .blocked) nofun).after ⟨rfl, rfl, id⟩

theorem beginAssert (s : State) (m : BitVec 32) : Unrefused s (s.beginAssert m) :=
  (setFlagIf s.reevaluate _ (f := .blocked) nofun).after ⟨rfl, rfl, id⟩

theorem reportReflex (s : State) (i : SlotNo) (b : Bool) (r : Record) : Unrefused s (s.reportReflex i b r) := by
  obtain ⟨cl, e⟩ := s.reportReflex_frame i b r
  rw [e]
  exact ⟨rfl, rfl, id⟩

theorem assertSlot (s : State) (i : SlotNo) : Unrefused s (s.assertSlot i) :=
  (reportReflex _ _ _ _).after ((beginAssert _ _).after ⟨rfl, rfl, id⟩)

theorem completePulse (s : State) (i : SlotNo) (c : EndCause) (b : Bool) (st : Stamp) :
    Unrefused s (s.completePulse i c b st) :=
  (reportReflex _ _ _ _).after ⟨rfl, rfl, id⟩

theorem disarmSlot (s : State) (i : SlotNo) (c : EndCause) : Unrefused s (s.disarmSlot i c) := by
  unfold State.disarmSlot
  simp only
  split
  · exact (reportReflex _ _ _ _).after ⟨rfl, rfl, id⟩
  · exact ⟨rfl, rfl, id⟩

theorem halt (s : State) : Unrefused s s.halt :=
  forEach_keeps (P := Unrefused s) (fun i t ht => ht.trans (disarmSlot t i _)) ⟨rfl, rfl, id⟩

theorem restartPulse (s : State) (i : SlotNo) (v : Bool) : Unrefused s (s.restartPulse i v) := by
  have hcut : Unrefused s _ := (reportReflex (s.setSlot i { s.slots.get i with edge := some v }) i true
    (reflexOffRecord i (s.slots.get i) .retriggered s.tickStamp)).after ⟨rfl, rfl, id⟩
  unfold State.restartPulse
  simp only
  split
  · exact hcut.trans (assertSlot _ _)
  · exact hcut.trans ⟨rfl, rfl, id⟩

theorem triggerSlot (s : State) (i : SlotNo) (v : Bool) : Unrefused s (s.triggerSlot i v) := by
  unfold State.triggerSlot
  simp only
  split
  · exact refl s
  · split
    · exact (assertSlot _ _).after ⟨rfl, rfl, id⟩
    · exact ⟨rfl, rfl, id⟩
  · split <;> exact ⟨rfl, rfl, id⟩
  · split
    · exact refl s
    · exact ⟨rfl, rfl, id⟩
    · exact restartPulse s i v
  · exact refl s

/-! ### The schedule -/

theorem fireEntry (s : State) (e : Entry) (late b : Bool) (st : Stamp) :
    Unrefused s (s.fireEntry e late b st) := by
  have hreenter (t : State) (x : Option Entry) : Unrefused t (t.reenter x) := by
    cases x <;> exact ⟨rfl, rfl, id⟩
  have hreport (t : State) (d : Word) : Unrefused t (t.reportAction e b d st) := by
    unfold State.reportAction
    split <;> exact ⟨rfl, rfl, id⟩
  exact ((scheduleClaim s _ _).trans (hreenter _ _)).trans (hreport _ _)

theorem finishCommit (s : State) : Unrefused s s.finishCommit :=
  (setFlagIf _ _ (f := .commit) nofun).after ⟨rfl, rfl, id⟩

theorem startApplying (s : State) : Unrefused s s.startApplying := by
  unfold State.startApplying
  simp only
  split
  · exact (finishCommit _).after ⟨rfl, rfl, id⟩
  · exact ⟨rfl, rfl, id⟩

/-! ### The happenings of a tick -/

theorem poolMove {s t : State} (h : PoolMove False s t) : Unrefused s t := by
  cases h with
  | claim => exact takeClaim s
  | age g => exact ⟨rfl, rfl, id⟩
  | free hm | flush hm | deliver hm | irq hm | quota hm => exact hm.elim

theorem reflexMove {s t : State} (h : ReflexMove False s t) : Unrefused s t := by
  cases h with
  | trigger i v _ => exact triggerSlot s i v
  | assert i _ _ => exact assertSlot s i
  | complete i c b st _ _ => exact completePulse s i c b st
  | disarm hm | arm hm | configure hm => exact hm.elim

theorem scheduleMove {s t : State} (h : ScheduleMove False s t) : Unrefused s t := by
  cases h with
  | fire a rest _ _ => exact (fireEntry _ _ _ _ _).after ⟨rfl, rfl, id⟩
  | start _ => exact startApplying s
  | finish hm | stage hm | discard hm | arm hm | abort hm | settings hm | insert hm | late hm | remove hm
  | refuse hm => exact hm.elim

/-- No happening of a tick refuses a write. -/
theorem move {s t : State} (h : Move False s t) : Unrefused s t := by
  cases h with
  | pool h => exact poolMove h
  | reflex h => exact reflexMove h
  | schedule h => exact scheduleMove h
  | timebase h => exact h.keeps (P := Unrefused s) fun _ => ⟨rfl, rfl, id⟩
  | input h => exact h.keeps (P := Unrefused s) fun _ => ⟨rfl, rfl, id⟩
  | output h => cases h with | claim hm | write hm => exact hm.elim
  | part h => cases h with | preset hm | run hm | halt hm | softReset hm | deviceReset hm => exact hm.elim
  | offer => exact ⟨rfl, rfl, id⟩
  | marks _ fl _ hfl => exact ⟨rfl, rfl, fun h => (hfl h).resolve_right id⟩
  | window hm => exact hm.elim

theorem moves {s t : State} (h : Moves False s t) : Unrefused s t :=
  h.keeps (P := Unrefused s) (fun _ _ hm hs => hs.trans (move hm)) (refl s)

end Unrefused

/-! ### Host writes that are taken -/

/-- The owner's work on a host write that it takes refuses nothing. -/
def OpUnrefused (op : State → Except RefCode State) : Prop := ∀ s t, op s = .ok t → Unrefused s t

namespace OpUnrefused

theorem ok {f : State → State} (h : ∀ s, Unrefused s (f s)) : OpUnrefused fun s => .ok (f s) :=
  fun s _ ht => by cases ht; exact h s

theorem tbctl (w : Word) : OpUnrefused (tbctlOp w) := by
  intro s t h
  have hswitches {u : State} {a b c : Bool} (h : (.ok (u.withSwitches a b c)) = (.ok t : Except RefCode State))
      (hu : Unrefused s u) : Unrefused s t := by
    cases h
    exact hu.trans ⟨rfl, rfl, id⟩
  unfold tbctlOp at h
  split at h
  · unfold startOp at h
    split at h
    · exact hswitches h ⟨rfl, rfl, id⟩
    · cases h
  · unfold stopOp at h
    split at h
    · cases h
    · have hdone := Unrefused.moves (moves_finishTick s)
      generalize s.finishTick = u at h hdone
      exact hswitches h (hdone.trans ⟨rfl, rfl, id⟩)
  · unfold presetOp at h
    split at h
    · exact hswitches h ⟨rfl, rfl, id⟩
    · cases h
  · exact hswitches h (.moves (moves_missExpiry s))

theorem setting {s t : State} {b : Bool} {x : Option Timebase} (h : settingOp b x s = .ok t) : Unrefused s t := by
  unfold settingOp at h
  split at h
  · cases h
  · split at h
    · cases h
    · cases h; exact ⟨rfl, rfl, id⟩

theorem mode (w : Word) : OpUnrefused (modeOp w) := by
  intro s t h
  unfold modeOp at h
  split at h
  · cases h; exact .refl s
  · unfold runOp at h
    split at h
    · cases h
    · split at h <;> cases h <;> exact ⟨rfl, rfl, id⟩
  · unfold haltOp at h
    split at h
    · cases h; exact .refl s
    · have hdone := Unrefused.moves (moves_finishCapture s)
      generalize s.finishCapture = u at h hdone
      rw [← Except.ok.inj h]
      exact hdone.trans (.halt u)
  · cases h

theorem frzctl (w : Word) : OpUnrefused (frzctlOp w) := by
  intro s t h
  unfold frzctlOp at h
  split at h
  · cases h; exact .refl s
  · cases h
    exact .moves (moves_addCause s _ _ _ State.eventStamp_unsync)
  · unfold unfreezeOp at h
    split at h
    · cases h
    · split at h <;> cases h <;> exact ⟨rfl, rfl, id⟩
  · cases h

theorem rfxcmd (w : Word) : OpUnrefused (rfxcmdOp w) := by
  intro s t h
  unfold rfxcmdOp at h
  split at h
  · unfold armOp at h
    split at h
    · cases h
    · split at h <;> cases h
      exact ⟨rfl, rfl, id⟩
  · cases h; exact .disarmSlot s _ _
  · unfold clearOp at h
    split at h <;> cases h
    exact .completePulse s _ _ _ _
  · cases h

theorem stage {s t : State} {o : Option StagedOp} (h : stageOp o s = .ok t) : Unrefused s t := by
  unfold stageOp at h
  split at h
  · cases h
  · split at h
    · cases h
    · split at h <;> cases h
      exact ⟨rfl, rfl, id⟩

theorem scmd (w : Word) : OpUnrefused (scmdOp w) := by
  intro s t h
  unfold scmdOp at h
  split at h
  · exact stage h
  · exact stage h
  · unfold discardOp at h
    split at h <;> cases h
    exact ⟨rfl, rfl, id⟩
  · unfold commitNowOp at h
    split at h <;> cases h
    exact .startApplying s
  · unfold commitAtOp at h
    split at h
    · split at h <;> cases h
      · exact .startApplying s
      · exact ⟨rfl, rfl, id⟩
    · cases h
  · unfold abortOp at h
    split at h <;> cases h
    exact ⟨rfl, rfl, id⟩
  · cases h

theorem write : OpUnrefused writeOp := by
  intro s t h
  unfold writeOp at h
  split at h
  · split at h
    · cases h
    · unfold writeLineOp at h
      simp only at h
      split at h
      · cases h
      · split at h <;> cases h
        exact ⟨rfl, rfl, id⟩
  · split at h
    · cases h
    · unfold writeSlotOp at h
      split at h
      · split at h <;> cases h
        exact ⟨rfl, rfl, id⟩
      · cases h
  · split at h
    · cases h
    · split at h <;> cases h
      exact ⟨rfl, rfl, id⟩
  · split at h
    · cases h
    · unfold writeQuotaOp at h
      split at h
      · cases h
      · split at h
        · cases h
        · simp only at h
          split at h <;> cases h
          exact ⟨rfl, rfl, id⟩
  · cases h
  · cases h

theorem tcmd (w : Word) : OpUnrefused (tcmdOp w) := by
  intro s t h
  unfold tcmdOp at h
  split at h
  · unfold readOp at h
    split at h <;> cases h
    exact ⟨rfl, rfl, id⟩
  · exact write s t h
  · unfold appendOp at h
    split at h
    · exact stage h
    all_goals cases h
  · cases h

theorem ack (g : GroupNo) (w : Word) : OpUnrefused (ackOp g w) := by
  refine ok fun s => ?_
  unfold State.acknowledge
  split
  · obtain ⟨_, _, e⟩ := s.freePresented_frame g
    rw [e]
    exact ⟨rfl, rfl, id⟩
  · exact .setFlag s nofun

theorem flush (w : Word) : OpUnrefused (flushOp w) := by
  intro s t h
  unfold flushOp at h
  split at h
  · next hw =>
    cases h
    obtain ⟨_, _, e⟩ := s.flushGroup_frame ⟨w.toNat, hw⟩
    rw [e]
    exact ⟨rfl, rfl, id⟩
  · cases h

theorem delen (w : Word) : OpUnrefused (delenOp w) :=
  ok fun s => forEach_keeps (P := Unrefused s) (fun g t ht => ht.trans (by
    obtain ⟨_, _, e⟩ := t.setDeliver_frame g (w.getLsbD g.val)
    rw [e]
    exact ⟨rfl, rfl, id⟩)) (.refl s)

theorem errflag (w : Word) : OpUnrefused (errflagOp w) :=
  ok fun s => ⟨rfl, rfl, fun h => by
    rw [BitVec.getLsbD_and] at h
    exact (Bool.and_eq_true_iff.1 h).1⟩

/-- Every register's owner, but of the soft reset (R183). -/
theorem register (r : Register) (w : Word) (hr : commandOfWrite r.addr w ≠ .softReset) :
    OpUnrefused (registerOp r w) := by
  have plain {f : State → State} (h : ∀ s, Unrefused s (f s)) : OpUnrefused fun s => .ok (f s) := ok h
  have refused (c : RefCode) : OpUnrefused fun _ => .error c := fun _ _ h => by cases h
  cases r with
  | mode => exact mode w
  | softrst =>
    intro s t h
    simp only [registerOp, softrstOp] at h
    split at h
    · cases h; exact .refl s
    · split at h
      · next hw => exact absurd (by rw [hw]; decide +kernel) hr
      · cases h
  | errflag => exact errflag w
  | erren => exact plain fun s => ⟨rfl, rfl, id⟩
  | wsel =>
    intro s t h
    simp only [registerOp, wselOp] at h
    split at h <;> cases h
    exact ⟨rfl, rfl, id⟩
  | ack g => exact ack g w
  | gflush => exact flush w
  | delen => exact delen w
  | girqen => exact plain fun s => ⟨rfl, rfl, id⟩
  | tbctl => exact tbctl w
  | tickdiv => exact fun _ _ h => setting h
  | syncper i => exact fun _ _ h => setting h
  | synctol =>
    intro s t h
    simp only [registerOp, syncTolOp] at h
    exact setting h
  | slewlim => exact fun _ _ h => setting h
  | synclim => exact fun _ _ h => setting h
  | tbset i => exact plain fun s => ⟨rfl, rfl, id⟩
  | hostset i => exact plain fun s => .hostClaim s true i w
  | hostclr i => exact plain fun s => .hostClaim s false i w
  | frzctl => exact frzctl w
  | rfxcmd => exact rfxcmd w
  | scmd => exact scmd w
  | sarg => exact plain fun s => ⟨rfl, rfl, id⟩
  | cat i =>
    intro s t h
    simp only [registerOp, catOp] at h
    split at h <;> cases h
    exact ⟨rfl, rfl, id⟩
  | tsel =>
    intro s t h
    simp only [registerOp, tselOp] at h
    split at h
    case h_7 => cases h
    all_goals cases h; exact ⟨rfl, rfl, id⟩
  | tidx =>
    intro s t h
    simp only [registerOp, tidxOp] at h
    split at h <;> cases h
    exact ⟨rfl, rfl, id⟩
  | tcmd => exact tcmd w
  | tdata i => exact plain fun s => ⟨rfl, rfl, id⟩
  | _ => exact refused _

end OpUnrefused

/-! ### Fields of a word as numbers -/

/-- A field put above the bits in use adds its number there. -/
theorem toNat_or_shiftLeft {x y : Word} {k : Nat} (hx : x.toNat < 2 ^ k) (hy : y.toNat * 2 ^ k < 2 ^ 16) :
    (x ||| y <<< k).toNat = x.toNat + 2 ^ k * y.toNat := by
  rw [BitVec.toNat_or, BitVec.toNat_shiftLeft, Nat.shiftLeft_eq, Nat.mod_eq_of_lt hy, Nat.or_comm,
    ← Nat.shiftLeft_eq, ← Nat.shiftLeft_add_eq_or_of_lt hx, Nat.shiftLeft_eq, Nat.add_comm, Nat.mul_comm]

theorem bitAt_eq_shiftLeft (b : Bool) (k : Nat) : bitAt b k = bitAt b 0 <<< k := by
  cases b with
  | false => simp [bitAt]
  | true =>
    apply BitVec.eq_of_toNat_eq
    simp [bitAt, Nat.shiftLeft_eq]

theorem toNat_bitAt_zero (b : Bool) : (bitAt b 0).toNat = if b then 1 else 0 := by cases b <;> rfl

/-- A one-bit field put above the bits in use adds its bit. -/
theorem toNat_or_bitAt {x : Word} {b : Bool} {k : Nat} (hk : k < 16) (hx : x.toNat < 2 ^ k) :
    (x ||| bitAt b k).toNat = x.toNat + if b then 2 ^ k else 0 := by
  rw [bitAt_eq_shiftLeft, toNat_or_shiftLeft hx, toNat_bitAt_zero]
  · cases b <;> simp
  · rw [toNat_bitAt_zero]
    have hlt := Nat.pow_lt_pow_right (a := 2) (by decide) hk
    cases b with
    | false => simp
    | true => simpa using hlt

/-! ### Settling O7 -/

/-- A host command does what a REGISTER_WRITE of its word to its address does. -/
theorem exec_eq_registerWrite {c : Instr} {a : Addr} {w : Word} (h : writeOfCommand c = some (a, w)) (s : State) :
    exec c s = exec (.registerWrite a w) s := by
  by_cases hc : c.wellFormed = true
  · rw [exec_registerWrite_eq_commandOfWrite, hostWriteRoundTrip c a w hc h]
  · cases c
    case registerWrite => cases h; rfl
    all_goals exact absurd rfl hc

/-- REFCODE shows the code in bits 10:8 and the address in bits 7:0 (R182, R189). -/
theorem toNat_refcodeWord (c : Option RefCode) (a : Addr) :
    ((match c with | none => (0 : Word) | some c => c.value <<< 8) ||| a.zeroExtend 16).toNat =
      a.toNat + 256 * (match c with
        | none => 0 | some .readonly => 1 | some .mode => 2 | some .busy => 3 | some .range => 4
        | some .full => 5 | some .unmapped => 6 | some .quota => 7) := by
  have haddr : (a.zeroExtend 16).toNat = a.toNat := BitVec.toNat_setWidth_of_le (by decide)
  cases c with
  | none => simp [haddr]
  | some c =>
    rw [BitVec.or_comm]
    refine (toNat_or_shiftLeft (haddr.trans_lt a.isLt) ?_).trans ?_
    · cases c <;> decide
    · rw [haddr]
      cases c <;> rfl

/-- Settles O7: each host write is one to an address, and what the owner of a register takes leaves REFCODE and
REFUSED. -/
theorem hostWriteIsTakenOrRefused : Obligations.HostWriteIsTakenOrRefused := by
  refine ⟨fun c a w s hc hr hrst => ?_, fun s hr => ⟨?_, ?_, ?_⟩⟩
  · rw [exec_eq_registerWrite hc]
    refine ⟨_, hostWrite_running a _ s hr, ?_⟩
    cases hreg : Register.ofAddr a with
    | none =>
      refine .inl ⟨.unmapped, ?_⟩
      simp only [addressOp, hreg]
      rfl
    | some r =>
      obtain rfl := (Register.addr_of_ofAddr hreg).symm
      rw [addressOp_addr]
      cases hop : registerOp r w s.settled with
      | error code => exact .inl ⟨code, rfl⟩
      | ok t =>
        have hkept := (Unrefused.settled s).trans (OpUnrefused.register r w hrst _ _ hop)
        exact .inr ⟨hkept.code, hkept.addr, hkept.flag⟩
  · rw [s.readAddr_eq 0x05 .refcode rfl hr]
    simp only [State.readRegister, State.settled_refCode, State.settled_refAddr]
    exact toNat_refcodeWord _ _
  · rw [s.readAddr_eq 0x03 .errflag rfl hr]
    exact BitVec.toNat_setWidth_of_le (by decide)
  · rw [s.readAddr_eq 0x04 .erren rfl hr]
    simp only [State.readRegister, State.settled_errEnable]
    exact BitVec.toNat_setWidth_of_le (by decide)

end Sys2Proof.Machine
end

section
/-!
PROOFS. The Timebase by itself: the phase error, the miss timer, the slew adjustment, the settings and the time
read. Settles O13, O19, O20, O23 and O24.
-/
namespace Sys2Proof.Machine
-- Declarations in order: a worker that waits for the kernel holds 1 GiB of the check's memory.
set_option Elab.async false

/-! ### The phase error (R11, R190) -/

/-- Two numbers of a range of P that differ by a multiple of P are one. -/
theorem eq_of_dvd_sub_of_range {p v x y : Int} (hx : -p < 2 * x ∧ 2 * x ≤ p) (hy : -p < 2 * y ∧ 2 * y ≤ p)
    (dx : p ∣ v - x) (dy : p ∣ v - y) : x = y := by
  have hdvd : p ∣ x - y := by
    have h := Int.dvd_sub dy dx
    rwa [show v - y - (v - x) = x - y by omega] at h
  have habs : |x - y| < p := by
    rw [abs_lt]
    omega
  have h := Int.eq_zero_of_abs_lt_dvd hdvd habs
  omega

theorem toInt_lastErrWord (e : Int) : (lastErrWord e).toInt = max (-32768) (min 32767 e) := by
  unfold lastErrWord
  rw [BitVec.toInt_ofInt, Int.bmod_eq_of_le (by omega) (by omega)]

/-- Settles O13. -/
theorem phaseErrorIsTheNearestMultiple : Obligations.PhaseErrorIsTheNearestMultiple := by
  refine ⟨fun v p hp => ?_, fun s hr => ?_⟩
  · obtain ⟨hle, hlt, hdvd⟩ := phaseError_range v hp
    exact ⟨hle, hlt, hdvd, fun x hx hx' dx => eq_of_dvd_sub_of_range ⟨hx, hx'⟩ ⟨hlt, hle⟩ dx hdvd⟩
  · have hread : (s.readAddr 0x3C).toInt = max (-32768) (min 32767 s.tb.lastError) := by
      rw [s.readAddr_eq 0x3C .lasterr rfl hr]
      simp only [State.readRegister, State.settled_tb, toInt_lastErrWord]
    rw [hread]
    omega

/-! ### The miss timer (R17, R18) -/

/-- Below the miss limit an expiry offers nothing. -/
theorem State.missExpiry_of_ne {s : State} (hd : s.tb.expiryDue = true)
    (h : s.tb.missCount + 1 ≠ s.tb.missLimit) : s.missExpiry = { s with tb := { s.tb with
      missCount := s.tb.missCount + 1, missTimer := some s.tb.period.toNat, tickState := s.tb.state } } := by
  rw [State.missExpiry_due hd]
  simp only [State.timebaseEffect, Timebase.expiry, Timebase.expire, h, if_false]
  rfl

/-- At the miss limit an expiry offers LOST and sets SYNC, and the freeze cause stands behind them. -/
theorem State.missExpiry_of_eq {s : State} (hd : s.tb.expiryDue = true)
    (h : s.tb.missCount + 1 = s.tb.missLimit) :
    let t : State := { s with
      tb := { s.tb with
        state := .holdover, tickState := .holdover, missCount := s.tb.missCount + 1, missReached := true
        missTimer := none }
      claims := insertClaim ⟨.timebase, true, syncRecord ⟨.lost, 0⟩ ⟨s.tb.tickTime, s.tb.tickEpoch, true⟩⟩ s.claims
      errFlags := s.errFlags ||| 0x08 }
    s.missExpiry = if s.tb.freezeOnHoldover then
      t.addCause .holdover true ⟨s.tb.tickTime, s.tb.tickEpoch, true⟩ else t := by
  rw [State.missExpiry_due hd]
  simp only [State.timebaseEffect, Timebase.expiry, Timebase.expire, h, if_true]
  rfl

/-- Settles O19. -/
theorem missTimerExpiryCountsAMiss : Obligations.MissTimerExpiryCountsAMiss := by
  intro s
  refine ⟨fun h => congrArg Host.Outcome.next (s.missExpiry_eq h), fun hl ht => ?_⟩
  have hd : s.tb.expiryDue = true := by simp [Timebase.expiryDue, hl, ht]
  refine ⟨fun h => ?_, fun h => ⟨fun hf => ?_, fun hf hz => ?_, fun hf hz => ?_⟩⟩
  · refine (congrArg Host.Outcome.next (State.missExpiry_of_ne hd h)).trans ?_
    rw [hl]
  all_goals refine (congrArg Host.Outcome.next (State.missExpiry_of_eq hd h)).trans ?_
  · rw [hf]
    rfl
  · have hz' : s.causes.any = true := hz
    simp only [hf, if_true, State.addCause, State.frozen, hz']
    rfl
  · have hz' : s.causes.any = false := hz
    simp only [hf, if_true, State.addCause, State.frozen, hz', Bool.false_eq_true, if_false]
    simp only [State.setFlag, State.offer, Causes.add, ErrFlag.bit, BitVec.or_assoc]
    rfl

/-! ### The slew adjustment (R13) -/

theorem Timebase.slewDue_iff (t : Timebase) :
    t.slewDue = true ↔ ∃ x, t.slew = some x ∧ t.advance = .normal ∧ x.next ≤ 1 := by
  unfold Timebase.slewDue
  cases t.slew <;> simp

/-- Settles O20. -/
theorem slewAdjustmentChoosesTheTick : Obligations.SlewAdjustmentChoosesTheTick := by
  intro s
  refine ⟨fun x hr hx ha hn => ?_, fun h => ?_⟩
  · have hd : s.tb.slewDue = true := s.tb.slewDue_iff.2 ⟨x, hx, ha, hn⟩
    have hadjust : s.tb.adjust = { s.tb with
        advance := if x.ahead then .held else .doubled
        slew := if x.left ≤ 1 then none else some { x with left := x.left - 1, next := x.spacing } } := by
      simp only [Timebase.adjust, hx]
    refine (congrArg Host.Outcome.next (s.slewAdjust_eq hr)).trans ?_
    rw [hd, if_pos rfl, hadjust]
  · refine congrArg Host.Outcome.next ?_
    rcases h with h | h
    · exact State.whenTickDue_stopped h _ _
    · have hd : s.tb.slewDue = false := by
        refine Bool.eq_false_iff.2 fun hd => ?_
        obtain ⟨x, hx, ha, hn⟩ := s.tb.slewDue_iff.1 hd
        rcases h with h | h | ⟨y, hy, hlt⟩
        · exact absurd (hx.symm.trans h) nofun
        · exact h ha
        · obtain rfl := Option.some.inj (hx.symm.trans hy)
          omega
      unfold State.slewAdjust
      rw [hd, State.whenTickDue_false]

/-! ### The time read (R9) -/

/-- The three words of a time value, put together. -/
theorem timeWord_append (t : Time) : (timeWord t 2 ++ timeWord t 1 ++ timeWord t 0 : BitVec 48) = t := by
  apply BitVec.eq_of_getLsbD_eq
  intro k hk
  rw [getLsbD_words]
  unfold timeWord
  simp only [BitVec.getLsbD_extractLsb']
  split
  · next h => simp [h]
  · split
    · next h1 h2 =>
      have h3 : k - 16 < 16 := by omega
      simp [h3, Nat.add_sub_cancel' (Nat.not_lt.1 h1)]
    · next h1 h2 =>
      have h3 : k - 32 < 16 := by omega
      simp [h3, Nat.add_sub_cancel' (Nat.not_lt.1 h2)]

/-- Settles O24. -/
theorem timeReadLatchesTheTimeValue : Obligations.TimeReadLatchesTheTimeValue := by
  intro s hr
  have hread : exec .timeRead s = .next { s.settled with
      readData := timeWord s.tb.counter 0, tb := { s.tb with latch := s.tb.counter } } := by
    change execTimeRead s = _
    simp only [execTimeRead, hr, Bool.false_eq_true, if_false, State.settled_tb]
  refine ⟨_, hread, rfl, ?_, ?_⟩
  · rw [s.readAddr_eq 0x32 (.time 0) rfl hr]
    simp only [State.readRegister, State.settled_tb]
  · generalize ht : ({ s.settled with
      readData := timeWord s.tb.counter 0, tb := { s.tb with latch := s.tb.counter } } : State) = t
    have htr : t.inReset = false := by rw [← ht]; exact s.settled_inReset.trans hr
    have hlatch : t.tb.latch = s.tb.counter := by rw [← ht]
    have hdata : t.readData = timeWord s.tb.counter 0 := by rw [← ht]
    rw [t.readAddr_eq 0x33 (.time 1) rfl htr, t.readAddr_eq 0x34 (.time 2) rfl htr]
    simp only [State.readRegister, State.settled_tb, hlatch, hdata]
    exact timeWord_append s.tb.counter

end Sys2Proof.Machine
end

section
/-!
PROOFS. The settings that the host writes and reads back: those of the Timebase, refused with BUSY, then with
RANGE (R7). Settles O23.
-/
namespace Sys2Proof.Machine
-- Declarations in order: a worker that waits for the kernel holds 1 GiB of the check's memory.
set_option Elab.async false

/-! ### Fields of words -/

/-- Two fields put together, as numbers. -/
theorem toNat_append_fields {m n : Nat} (x : BitVec m) (y : BitVec n) :
    (x ++ y).toNat = 2 ^ n * x.toNat + y.toNat := by
  rw [BitVec.toNat_append, ← Nat.shiftLeft_add_eq_or_of_lt y.isLt, Nat.shiftLeft_eq, Nat.mul_comm]

/-- A field of a value, as a number. -/
theorem toNat_extract {m : Nat} (x : BitVec m) (k n : Nat) :
    (x.extractLsb' k n).toNat = x.toNat / 2 ^ k % 2 ^ n := by
  rw [BitVec.extractLsb'_toNat, Nat.shiftRight_eq_div_pow]

theorem toNat_low16 {m : Nat} (x : BitVec m) : (low16 x).toNat = x.toNat % 65536 := by
  rw [low16, toNat_extract, pow_zero, Nat.div_one]; rfl

theorem toNat_mid16 {m : Nat} (x : BitVec m) : (mid16 x).toNat = x.toNat / 65536 % 65536 := toNat_extract x 16 16

theorem toNat_widen {m : Nat} (h : m ≤ 16) (x : BitVec m) : (x.zeroExtend 16).toNat = x.toNat :=
  BitVec.toNat_setWidth_of_le h

/-! ### The settings of the Timebase (R7, R192) -/

/-- The three outcomes of a setting write: BUSY, RANGE, or taken. -/
theorem exec_setting {r : Register} {w : Word} {s : State} {ok inRange : Prop} {b : Bool} {x : Option Timebase}
    {t : Timebase} (h : s.inReset = false) (hop : registerOp r w s.settled = settingOp b x s.settled)
    (hb : b = true ↔ ok) (hin : inRange → x = some t) (hout : ¬inRange → x = none) :
    (¬ok → exec (.registerWrite r.addr w) s = .next (s.settled.refuse .busy r.addr)) ∧
    (ok → ¬inRange → exec (.registerWrite r.addr w) s = .next (s.settled.refuse .range r.addr)) ∧
    (ok → inRange → exec (.registerWrite r.addr w) s = .next { s.settled with tb := t }) := by
  refine ⟨fun hok => exec_registerWrite_refused h ?_, fun hok hr => exec_registerWrite_refused h ?_,
    fun hok hr => exec_registerWrite_taken h ?_⟩
  · rw [hop, Bool.eq_false_iff.2 (hb.not.2 hok)]
    rfl
  · rw [hop, hb.2 hok, hout hr]
    rfl
  · rw [hop, hb.2 hok, hin hr]
    rfl

theorem Timebase.isStopped_iff (t : Timebase) : t.isStopped = true ↔ t.state = .stopped := beq_iff_eq

theorem Timebase.syncWritable_iff (t : Timebase) :
    t.syncWritable = true ↔ t.state = .stopped ∨ t.syncEnable = false := by
  simp [Timebase.syncWritable]

/-- The period that a word of SYNCPER would make, low word and high word. -/
theorem toNat_period (p : BitVec 24) (w : Word) :
    (p.extractLsb' 16 8 ++ w : BitVec 24).toNat = 65536 * (p.toNat / 65536) + w.toNat ∧
    (w.toNat < 256 →
      (w.extractLsb' 0 8 ++ p.extractLsb' 0 16 : BitVec 24).toNat = 65536 * w.toNat + p.toNat % 65536) := by
  have hp := p.isLt
  constructor
  · refine (toNat_append_fields _ _).trans ?_
    rw [toNat_extract]
    omega
  · intro hw
    refine (toNat_append_fields _ _).trans ?_
    rw [toNat_extract, toNat_extract]
    omega

/-- A word of SYNCPER as a setting write (R192). -/
theorem exec_syncper {w : Word} {s : State} (h : s.inReset = false) :
    let syncOk := s.tb.state = .stopped ∨ s.tb.syncEnable = false
    let hi := s.tb.period.toNat / 65536
    let lo := s.tb.period.toNat % 65536
    let write (a : Addr) (ok inRange : Prop) (t : Timebase) : Prop :=
      (¬ok → exec (.registerWrite a w) s = .next (s.settled.refuse .busy a)) ∧
      (ok → ¬inRange → exec (.registerWrite a w) s = .next (s.settled.refuse .range a)) ∧
      (ok → inRange → exec (.registerWrite a w) s = .next { s.settled with tb := t })
    write 0x37 syncOk (65536 * hi + w.toNat ≠ 0)
      { s.tb with period := BitVec.ofNat 24 (65536 * hi + w.toNat) } ∧
    write 0x38 syncOk (w.toNat < 256 ∧ 65536 * w.toNat + lo ≠ 0)
      { s.tb with period := BitVec.ofNat 24 (65536 * w.toNat + lo) } := by
  intro syncOk hi lo write
  have hsync : s.tb.syncWritable = true ↔ syncOk := s.tb.syncWritable_iff
  obtain ⟨hlow, hhigh⟩ := toNat_period s.tb.period w
  have htop : (w.extractLsb' 8 8).toNat = w.toNat / 256 := by
    rw [toNat_extract]
    omega
  have hof {n : Nat} {x : BitVec 24} (hx : x.toNat = n) : BitVec.ofNat 24 n = x := by
    rw [← hx, BitVec.ofNat_toNat, BitVec.setWidth_eq]
  constructor
  · refine exec_setting (r := .syncper 0) h (b := s.tb.syncWritable) (x := if
        (s.tb.period.extractLsb' 16 8 ++ w : BitVec 24) = 0 then none
        else some { s.tb with period := s.tb.period.extractLsb' 16 8 ++ w }) ?_ hsync (fun hin => ?_) fun hout => ?_
    · simp [registerOp, syncPerOp]
    · rw [if_neg fun hz => hin (hlow.symm.trans (by rw [hz]; rfl)), hof hlow]
    · have hz : 65536 * hi + w.toNat = 0 := not_not.1 hout
      exact if_pos (BitVec.eq_of_toNat_eq (y := 0) (hlow.trans hz))
  · refine exec_setting (r := .syncper 1) h (b := s.tb.syncWritable) (x := if
        w.extractLsb' 8 8 ≠ 0 ∨ (w.extractLsb' 0 8 ++ s.tb.period.extractLsb' 0 16 : BitVec 24) = 0 then none
        else some { s.tb with period := w.extractLsb' 0 8 ++ s.tb.period.extractLsb' 0 16 }) ?_ hsync
      (fun hin => ?_) fun hout => ?_
    · simp [registerOp, syncPerOp]
    · have hval := hhigh hin.1
      rw [if_neg, hof hval]
      rintro (htop' | hz)
      · refine htop' (BitVec.eq_of_toNat_eq (htop.trans ?_))
        change _ = 0
        omega
      · exact hin.2 (hval.symm.trans (by rw [hz]; rfl))
    · refine if_pos (or_iff_not_imp_left.2 fun hz => ?_)
      have hsmall : w.toNat < 256 := by
        have := congrArg BitVec.toNat (not_not.1 hz)
        rw [htop] at this
        change _ = 0 at this
        omega
      refine BitVec.eq_of_toNat_eq ((hhigh hsmall).trans ?_)
      by_contra hne
      exact hout ⟨hsmall, hne⟩

/-- Settles O23. -/
theorem timebaseSettingsAreChecked : Obligations.TimebaseSettingsAreChecked := by
  intro w s hr syncOk hi lo write
  have hsync : s.tb.syncWritable = true ↔ syncOk := s.tb.syncWritable_iff
  have hp := s.tb.period.isLt
  have hnib (k : Nat) : (w.extractLsb' k 4 = 0) ↔ w.toNat / 2 ^ k % 16 = 0 := by
    rw [← BitVec.toNat_inj, toNat_extract]
    rfl
  refine ⟨?_, (exec_syncper hr).1, (exec_syncper hr).2, ?_, ?_, ?_, ?_, ?_, ?_, ?_, ?_, ?_⟩
  · refine exec_setting (r := .tickdiv) hr (by simp only [registerOp, tickDivOp, State.settled_tb]; rfl)
      s.tb.isStopped_iff (fun h => ?_) fun h => ?_
    · exact if_neg fun hw => by rcases hw with rfl | hw; exacts [absurd h.1 (by decide), by omega]
    · refine if_pos (or_iff_not_imp_right.2 fun hw => BitVec.eq_of_toNat_eq ?_)
      change w.toNat = 0
      omega
  · exact exec_setting (r := .synctol) hr (by simp only [registerOp, syncTolOp, State.settled_tb]) hsync
      (fun _ => rfl) fun h => absurd trivial h
  · refine exec_setting (r := .slewlim) hr (by simp only [registerOp, slewLimOp, State.settled_tb]; rfl) hsync
      (fun h => ?_) fun h => if_pos (Nat.not_le.1 h)
    rw [if_neg (Nat.not_lt.2 h)]
    have hval : w.extractLsb' 0 12 = BitVec.ofNat 12 w.toNat := BitVec.eq_of_toNat_eq (by
      rw [toNat_extract, pow_zero, Nat.div_one, BitVec.toNat_ofNat])
    rw [hval]
  · refine exec_setting (r := .synclim) hr (by simp only [registerOp, syncLimOp, State.settled_tb]; rfl) hsync
      (fun h => ?_) fun h => if_pos ?_
    · have hlow := (hnib 0).not.2 (by simpa using h.1)
      have hhigh := (hnib 4).not.2 h.2
      rw [if_neg (not_or.2 ⟨hlow, hhigh⟩)]
      have hval (k : Nat) : w.extractLsb' k 4 = BitVec.ofNat 4 (w.toNat / 2 ^ k) := BitVec.eq_of_toNat_eq (by
        rw [toNat_extract, BitVec.toNat_ofNat])
      rw [hval, hval, pow_zero, Nat.div_one]
      rfl
    · by_cases hlow : w.toNat % 16 = 0
      · exact .inl ((hnib 0).2 (by simpa using hlow))
      · exact .inr ((hnib 4).2 (by by_contra hne; exact h ⟨hlow, hne⟩))
  · rw [s.readAddr_eq 0x36 .tickdiv rfl hr]
    simp only [State.readRegister, State.settled_tb]
  · rw [s.readAddr_eq 0x37 (.syncper 0) rfl hr]
    simp only [State.readRegister, State.settled_tb, toNat_low16, lo]
  · rw [s.readAddr_eq 0x38 (.syncper 1) rfl hr]
    simp only [State.readRegister, State.settled_tb, toNat_mid16, hi]
    omega
  · rw [s.readAddr_eq 0x39 .synctol rfl hr]
    simp only [State.readRegister, State.settled_tb]
  · rw [s.readAddr_eq 0x3A .slewlim rfl hr]
    simp only [State.readRegister, State.settled_tb]
    exact toNat_widen (by decide) _
  · rw [s.readAddr_eq 0x3B .synclim rfl hr]
    simp only [State.readRegister, State.settled_tb]
    have hmiss : (s.tb.missLimit.zeroExtend 16).toNat = s.tb.missLimit.toNat := toNat_widen (by decide) _
    have hbad : (s.tb.badLimit.zeroExtend 16).toNat = s.tb.badLimit.toNat := toNat_widen (by decide) _
    have := s.tb.missLimit.isLt
    have := s.tb.badLimit.isLt
    rw [toNat_or_shiftLeft (by omega) (by omega), hmiss, hbad]
    rfl

end Sys2Proof.Machine
end

section
/-!
PROOFS. What the host has set, and that neither the work of a tick nor the settling of claims before a host
access changes it; the settings that may be written at any time. Settles O15 and O11.
-/
namespace Sys2Proof.Machine
-- Declarations in order: a worker that waits for the kernel holds 1 GiB of the check's memory.
set_option Elab.async false

/-! ### What a trigger makes of its slot (R109, R112 to R114) -/

/-- The slot with the triggering edge kept (R109). -/
def Slot.marked (x : Slot) (v : Bool) : Slot := { x with edge := some v }

/-- The slot that a trigger makes delay, or assert where its delay is 0 (R109, R113). -/
def Slot.started (x : Slot) (v : Bool) : Slot :=
  if x.config.delay = 0 then (x.marked v).assert else (x.marked v).startDelay

/-- The slot after a trigger to the level `v` that it matches. -/
def Slot.triggered (x : Slot) (v : Bool) : Slot :=
  match x.state, x.config.policy with
  | .armed, _ => x.started v
  | .delaying, .restart => (x.marked v).startDelay
  | .active, .extend => { x with timer := timerFor x.config.width }
  | .active, .restart => x.started v
  | _, _ => x

section Trigger
variable {s : State} {i : SlotNo} {v : Bool}

theorem State.triggerSlot_armed (h : (s.slots.get i).state = .armed) :
    s.triggerSlot i v = if (s.slots.get i).config.delay = 0 then
        (s.setSlot i ((s.slots.get i).marked v)).assertSlot i
      else s.setSlot i ((s.slots.get i).marked v).startDelay := by
  simp only [State.triggerSlot, h, State.setSlot, Bank.get_set_eq, Bank.set_set]
  rw [← h]
  rfl

theorem State.triggerSlot_delaying (h : (s.slots.get i).state = .delaying) :
    s.triggerSlot i v = if (s.slots.get i).config.policy = .restart then
        s.setSlot i ((s.slots.get i).marked v).startDelay
      else s := by
  simp only [State.triggerSlot, h]
  cases (s.slots.get i).config.policy <;> rfl

theorem State.triggerSlot_active (h : (s.slots.get i).state = .active) :
    s.triggerSlot i v = if (s.slots.get i).config.policy = .restart then s.restartPulse i v
      else if (s.slots.get i).config.policy = .extend then
        s.setSlot i { s.slots.get i with timer := timerFor (s.slots.get i).config.width }
      else s := by
  simp only [State.triggerSlot, h]
  cases (s.slots.get i).config.policy with
  | ignore => rfl
  | extend => rfl
  | restart => rfl

theorem State.triggerSlot_holding (h : (s.slots.get i).state = .holding) : s.triggerSlot i v = s := by
  simp only [State.triggerSlot, h]

end Trigger

theorem State.restartPulse_slots (s : State) (i : SlotNo) (v : Bool) :
    (s.restartPulse i v).slots = s.slots.set i ((s.slots.get i).started v) := by
  unfold State.restartPulse Slot.started
  simp only
  split
  · rw [State.assertSlot_slots, State.reportReflex_slots, State.setSlot_slots, Bank.get_set_eq, Bank.set_set]
    rfl
  · change ((State.reportReflex _ i true _).slots.set i _) = _
    rw [State.reportReflex_slots, State.setSlot_slots, Bank.get_set_eq, Bank.set_set]
    rfl

theorem State.triggerSlot_slots (s : State) (i : SlotNo) (v : Bool) :
    (s.triggerSlot i v).slots = s.slots.set i ((s.slots.get i).triggered v) := by
  have hsame : s.slots = s.slots.set i (s.slots.get i) := (Bank.set_get _ _).symm
  cases h : (s.slots.get i).state with
  | disarmed =>
    simp only [State.triggerSlot_disarmed h, Slot.triggered, h]
    exact hsame
  | armed =>
    simp only [State.triggerSlot_armed h, Slot.triggered, h, Slot.started]
    split
    · rw [State.assertSlot_slots, State.setSlot_slots, Bank.get_set_eq, Bank.set_set]
    · rfl
  | delaying =>
    rw [State.triggerSlot_delaying h]
    cases hp : (s.slots.get i).config.policy <;> simp only [Slot.triggered, h, hp]
    case restart => rfl
    all_goals exact hsame
  | active =>
    rw [State.triggerSlot_active h]
    cases hp : (s.slots.get i).config.policy <;> simp only [Slot.triggered, h, hp]
    case ignore => exact hsame
    case restart => exact s.restartPulse_slots i v
    case extend => rfl
  | holding =>
    simp only [State.triggerSlot_holding h, Slot.triggered, h]
    exact hsame

theorem Slot.assert_config (x : Slot) : x.assert.config = x.config := by
  unfold Slot.assert
  split <;> rfl

theorem Slot.started_config (x : Slot) (v : Bool) : (x.started v).config = x.config := by
  unfold Slot.started
  split
  · exact Slot.assert_config _
  · rfl

theorem Slot.triggered_config (x : Slot) (v : Bool) : (x.triggered v).config = x.config := by
  unfold Slot.triggered
  split
  · exact x.started_config v
  · rfl
  · rfl
  · exact x.started_config v
  · rfl

/-! ### The settings of every block -/

/-- The configured items of an output line (R88). -/
def OutLine.settings (o : OutLine) := (o.owner, o.safe, o.drive)

/-- The enables of a group (R71, R83). -/
def Group.settings (x : Group) := (x.deliver, x.irqEnable)

/-- What the host has set in the Schedule Unit (R149, R152, R155). -/
def Schedule.settings (x : Schedule) := (x.staging, x.cat, x.sarg)

/-- What Mode and Error Control, the window and the pins hold, but the error flags. -/
def State.panel (s : State) :=
  (s.mode, s.inReset, s.frzn, s.wsel, s.errEnable, s.refCode, s.refAddr, s.tsel, s.tidx, s.tdata, s.readData)

/-- What the host has set stands in `t` as it stands in `s`. -/
structure SameSettings (s t : State) : Prop where
  tb : t.tb.settings = s.tb.settings
  lines : ∀ n, (t.lines.get n).config = (s.lines.get n).config
  slots : ∀ i, (t.slots.get i).config = (s.slots.get i).config
  quotas : ∀ g, (t.queues.get g).quota = (s.queues.get g).quota
  groups : ∀ g, (t.groups.get g).settings = (s.groups.get g).settings
  outputs : ∀ n, (t.outputs.get n).settings = (s.outputs.get n).settings
  sched : t.sched.settings = s.sched.settings
  panel : t.panel = s.panel

namespace SameSettings

theorem refl (s : State) : SameSettings s s :=
  ⟨rfl, fun _ => rfl, fun _ => rfl, fun _ => rfl, fun _ => rfl, fun _ => rfl, rfl, rfl⟩

theorem trans {s t u : State} (h : SameSettings s t) (k : SameSettings t u) : SameSettings s u :=
  ⟨k.tb.trans h.tb, fun n => (k.lines n).trans (h.lines n), fun i => (k.slots i).trans (h.slots i),
    fun g => (k.quotas g).trans (h.quotas g), fun g => (k.groups g).trans (h.groups g),
    fun n => (k.outputs n).trans (h.outputs n), k.sched.trans h.sched, k.panel.trans h.panel⟩

/-! What the blocks do to one bank each. -/

theorem reflexOnly {s t : State} (h : ReflexOnly s t) (hx : ∀ i, (t.slots.get i).config = (s.slots.get i).config)
    (ho : ∀ n, (t.outputs.get n).settings = (s.outputs.get n).settings) : SameSettings s t := by
  obtain ⟨_, _, _, _, rfl⟩ := h
  exact ⟨rfl, fun _ => rfl, hx, fun _ => rfl, fun _ => rfl, ho, rfl, rfl⟩

theorem scheduleOnly {s t : State} (h : ScheduleOnly s t)
    (ho : ∀ n, (t.outputs.get n).settings = (s.outputs.get n).settings)
    (hx : t.sched.settings = s.sched.settings) : SameSettings s t := by
  obtain ⟨_, _, _, _, rfl⟩ := h
  exact ⟨rfl, fun _ => rfl, fun _ => rfl, fun _ => rfl, fun _ => rfl, ho, hx, rfl⟩

theorem timebaseOnly {s t : State} (h : TimebaseOnly s t) (ht : t.tb.settings = s.tb.settings) :
    SameSettings s t := by
  obtain ⟨_, _, _, _, rfl⟩ := h
  exact ⟨ht, fun _ => rfl, fun _ => rfl, fun _ => rfl, fun _ => rfl, fun _ => rfl, rfl, rfl⟩

/-- A bank of slots with one replaced keeps every configuration where that one keeps its own. -/
theorem slots_set {s t : State} {i : SlotNo} {x : Slot} (ht : t.slots = s.slots.set i x)
    (hx : x.config = (s.slots.get i).config) (j : SlotNo) :
    (t.slots.get j).config = (s.slots.get j).config := by
  rw [ht, Bank.get_set]
  split
  · next h => rw [h, hx]
  · rfl

end SameSettings

/-! ### The output lines' settings under the Reflex Unit and the Schedule Unit -/

/-- The settings of the output lines are the same. -/
def SameOutputs (s t : State) : Prop := ∀ n, (t.outputs.get n).settings = (s.outputs.get n).settings

namespace SameOutputs

theorem of_eq {s t : State} (h : t.outputs = s.outputs) : SameOutputs s t := fun _ => by rw [h]

theorem trans {s t u : State} (h : SameOutputs s t) (k : SameOutputs t u) : SameOutputs s u :=
  fun n => (k n).trans (h n)

theorem reevaluate (s : State) : SameOutputs s s.reevaluate := fun n => by
  rw [State.reevaluate_get]
  split <;> rfl

theorem beginAssert (s : State) (m : BitVec 32) : SameOutputs s (s.beginAssert m) :=
  (reevaluate s).trans (of_eq (State.setFlagIf_outputs _ _ _))

theorem reportReflex (s : State) (i : SlotNo) (b : Bool) (r : Record) : SameOutputs s (s.reportReflex i b r) :=
  of_eq (State.reportReflex_outputs s i b r)

theorem assertSlot (s : State) (i : SlotNo) : SameOutputs s (s.assertSlot i) :=
  ((of_eq rfl).trans (beginAssert (s.setSlot i _) _)).trans (reportReflex _ i true _)

theorem completePulse (s : State) (i : SlotNo) (c : EndCause) (b : Bool) (st : Stamp) :
    SameOutputs s (s.completePulse i c b st) :=
  ((of_eq rfl).trans (reevaluate (s.setSlot i _))).trans (reportReflex _ i b _)

theorem restartPulse (s : State) (i : SlotNo) (v : Bool) : SameOutputs s (s.restartPulse i v) := by
  unfold State.restartPulse
  simp only
  have h := (of_eq (s := s) (t := s.setSlot i { s.slots.get i with edge := some v }) rfl).trans
    (reportReflex _ i true (reflexOffRecord i (s.slots.get i) .retriggered s.tickStamp))
  split
  · exact h.trans (assertSlot _ i)
  · exact (h.trans (of_eq rfl)).trans (reevaluate (State.setSlot _ i _))

theorem triggerSlot (s : State) (i : SlotNo) (v : Bool) : SameOutputs s (s.triggerSlot i v) := by
  cases h : (s.slots.get i).state with
  | disarmed => rw [State.triggerSlot_disarmed h]; exact of_eq rfl
  | armed =>
    rw [State.triggerSlot_armed h]
    split
    · exact (of_eq rfl).trans (assertSlot (s.setSlot i _) i)
    · exact of_eq rfl
  | delaying =>
    rw [State.triggerSlot_delaying h]
    split <;> exact of_eq rfl
  | active =>
    rw [State.triggerSlot_active h]
    split
    · exact restartPulse s i v
    · split <;> exact of_eq rfl
  | holding => rw [State.triggerSlot_holding h]; exact of_eq rfl

theorem scheduleClaim (s : State) (a : Action) (m : BitVec 32) : SameOutputs s (s.scheduleClaim a m) := fun n => by
  unfold State.scheduleClaim
  rw [State.setFlagIf_outputs, Bank.get_mapIdx]
  split <;> rfl

theorem reenter (s : State) (e : Option Entry) : SameOutputs s (s.reenter e) := by cases e <;> exact of_eq rfl

theorem reportAction (s : State) (e : Entry) (b : Bool) (d : Word) (st : Stamp) :
    SameOutputs s (s.reportAction e b d st) := by
  unfold State.reportAction
  split <;> exact of_eq rfl

theorem fireEntry (s : State) (e : Entry) (late b : Bool) (st : Stamp) : SameOutputs s (s.fireEntry e late b st) :=
  ((scheduleClaim s _ _).trans (reenter _ _)).trans (reportAction _ _ _ _ _)

theorem skipEntry (s : State) (e : Entry) (st : Stamp) : SameOutputs s (s.skipEntry e st) :=
  (reenter _ _).trans (reportAction _ _ _ _ _)

end SameOutputs

/-! ### No work of a tick changes a setting (R28, R128) -/

theorem Schedule.reentered_settings (x : Schedule) (now : Time) (e : Option Entry) :
    (x.reentered now e).settings = x.settings := by cases e <;> rfl

theorem State.startApplying_settings (s : State) : s.startApplying.sched.settings = s.sched.settings := by
  unfold State.startApplying
  simp only
  split
  · next h =>
    rw [State.finishCommit_sched]
    simp only [Schedule.settings, State.setSched_sched, List.isEmpty_iff.1 h]
  · rfl

theorem State.takeRecord_group_settings (s : State) (g k : GroupNo) (r : Record) :
    ((s.takeRecord g r).groups.get k).settings = (s.groups.get k).settings := by
  unfold State.takeRecord
  split
  · unfold State.enterRecord State.admissionNotice
    simp only
    split
    · rw [State.present_eq, State.setGroup_groups, Bank.get_set]
      split
      · next h => rw [h]; rfl
      · rfl
    · rfl
  · split
    · rfl
    · cases h : (s.queues.get g).records[(s.groups.get g).candidate]? with
      | none => rw [State.dropOldest_none h]; rfl
      | some c =>
        by_cases hc : (s.queues.get g).runStart ≤ (s.groups.get g).candidate ∧ r.key.lt c.key = true
        · rw [State.dropOldest_raise h hc]; rfl
        · rw [State.dropOldest_replace h hc]; rfl

theorem State.takeClaim_group_settings (s : State) (k : GroupNo) :
    (s.takeClaim.groups.get k).settings = (s.groups.get k).settings := by
  unfold State.takeClaim
  split
  · rfl
  · exact State.takeRecord_group_settings _ _ _ _

theorem LineWork.config {l l' : Line} (h : LineWork l l') : l'.config = l.config := by cases h <;> rfl

namespace SameSettings

theorem poolMove {s t : State} (h : PoolMove False s t) : SameSettings s t := by
  cases h with
  | claim =>
    have hq := s.takeClaim_quota
    have hg := s.takeClaim_group_settings
    obtain ⟨cl, qs, gs, fl, e⟩ := s.takeClaim_frame
    rw [e] at hq hg ⊢
    exact ⟨rfl, fun _ => rfl, fun _ => rfl, hq, hg, fun _ => rfl, rfl, rfl⟩
  | age g =>
    refine ⟨rfl, fun _ => rfl, fun _ => rfl, fun _ => rfl, fun k => ?_, fun _ => rfl, rfl, rfl⟩
    rw [State.setGroup_groups, Bank.get_set]
    split
    · next h => rw [h]; rfl
    · rfl
  | _ => contradiction

theorem reflexMove {s t : State} (h : ReflexMove False s t) : SameSettings s t := by
  refine reflexOnly h.only (fun j => ?_) ?_
  · cases h with
    | trigger i v _ => exact slots_set (s.triggerSlot_slots i v) (Slot.triggered_config _ v) j
    | assert i _ _ => exact slots_set (s.assertSlot_slots i) (Slot.assert_config _) j
    | complete i c b st _ _ => exact slots_set (s.completePulse_slots i c b st) rfl j
    | _ => contradiction
  · cases h with
    | trigger i v _ => exact SameOutputs.triggerSlot s i v
    | assert i _ _ => exact SameOutputs.assertSlot s i
    | complete i c b st _ _ => exact SameOutputs.completePulse s i c b st
    | _ => contradiction

theorem scheduleMove {s t : State} (h : ScheduleMove False s t) : SameSettings s t := by
  refine scheduleOnly h.only ?_ ?_
  · cases h with
    | fire a rest _ _ =>
      exact (SameOutputs.of_eq rfl).trans (SameOutputs.fireEntry (s.setSched _) a.entry false true _)
    | start _ =>
      obtain ⟨_, _, _, e⟩ := startApplying_frame s
      exact SameOutputs.of_eq (by rw [e])
    | _ => contradiction
  · cases h with
    | fire a rest _ _ =>
      rw [State.fireEntry_sched, Schedule.reentered_settings]
      rfl
    | start _ => exact s.startApplying_settings
    | _ => contradiction

theorem move {s t : State} (h : Move False s t) : SameSettings s t := by
  cases h with
  | pool h => exact poolMove h
  | reflex h => exact reflexMove h
  | schedule h => exact scheduleMove h
  | timebase h =>
    cases h with
    | expire _ => exact timebaseOnly (timebaseOnly_setTb _ _) s.tb.expire_settings
    | _ => contradiction
  | input h =>
    cases h with
    | work n l hw =>
      refine ⟨rfl, fun m => ?_, fun _ => rfl, fun _ => rfl, fun _ => rfl, fun _ => rfl, rfl, rfl⟩
      rw [State.setLine_lines, Bank.get_set]
      split
      · next e => rw [e, hw.config]
      · rfl
    | write hm _ _ _ => contradiction
  | output h => cases h <;> contradiction
  | part h => cases h <;> contradiction
  | offer _ _ _ _ => exact ⟨rfl, fun _ => rfl, fun _ => rfl, fun _ => rfl, fun _ => rfl, fun _ => rfl, rfl, rfl⟩
  | marks _ _ _ _ => exact ⟨rfl, fun _ => rfl, fun _ => rfl, fun _ => rfl, fun _ => rfl, fun _ => rfl, rfl, rfl⟩
  | window hm _ _ _ _ _ _ _ _ _ => contradiction

theorem moves {s t : State} (h : Moves False s t) : SameSettings s t :=
  h.keeps (P := SameSettings s) (fun _ _ hm hs => hs.trans (move hm)) (refl s)

theorem settled (s : State) : SameSettings s s.settled := moves (moves_settled s)

theorem completeTick (s : State) : SameSettings s s.completeTick := moves (moves_completeTick s)

/-! The tick itself. -/

theorem takeAtStep (v : Time) (s : State) (e : Entry) : SameSettings s (State.takeAtStep v s e) := by
  refine scheduleOnly (State.takeAtStep_only v s e) ?_ ?_
  · unfold State.takeAtStep
    split
    · exact SameOutputs.fireEntry s e false true _
    · split
      · exact SameOutputs.fireEntry s e true true _
      · exact SameOutputs.skipEntry s e _
  · rw [State.takeAtStep_sched, Schedule.reentered_settings]

theorem stepEntries (s : State) (v : Time) : SameSettings s (s.stepEntries v) := by
  unfold State.stepEntries
  generalize (s.sched.active.filter fun a => reached s.tb.counter a.entry.due) = due
  have hstart (x : Schedule) (hx : x.settings = s.sched.settings) : SameSettings s (s.setSched x) :=
    scheduleOnly (scheduleOnly_setSched s x) (fun _ => rfl) hx
  have hfold (t : State) (ht : SameSettings s t) :
      SameSettings s (due.foldl (fun t a => t.takeAtStep v a.entry) t) := by
    induction due generalizing t with
    | nil => exact ht
    | cons a rest ih => exact ih _ (ht.trans (takeAtStep v t a.entry))
  exact hfold _ (hstart _ rfl)

end SameSettings

theorem Line.countTick_config (l : Line) : l.countTick.config = l.config := by
  unfold Line.countTick
  split <;> rfl

theorem Line.moved_config (l : Line) (step : Option Time) (e : BitVec 4) : (l.moved step e).config = l.config := by
  unfold Line.moved
  cases step <;> exact l.countTick_config

theorem Line.sample_config (l : Line) (b : Bool) (now : Onset) : (l.sample b now).config = l.config := by
  unfold Line.sample
  split
  · rfl
  · split
    · rfl
    · split <;> split <;> rfl

namespace SameSettings

theorem blockTick (s : State) (samples : BitVec 64) (step : Option Time) (v : Time) :
    SameSettings s (s.blockTick samples step v) := by
  have htick : SameSettings s (s.tickLines samples step).countSlots.countAges :=
    ⟨rfl, fun n => by
        change ((s.tickLines samples step).lines.get n).config = _
        rw [tickLines_get, Line.sample_config, Line.moved_config],
      fun i => by
        change ((s.slots.map _).get i).config = _
        rw [Bank.get_map],
      fun _ => rfl, fun g => by
        change ((s.groups.map _).get g).settings = _
        rw [Bank.get_map]
        rfl,
      fun _ => rfl, rfl, rfl⟩
  unfold State.blockTick
  cases step with
  | none => exact htick
  | some a =>
    have hnotice (t : State) : SameSettings t t.runNotice :=
      ⟨rfl, fun _ => rfl, fun _ => rfl, fun g => by rw [State.runNotice_get]; rfl, fun _ => rfl, fun _ => rfl,
        rfl, rfl⟩
    exact (htick.trans (hnotice _)).trans (stepEntries _ v)

theorem makeTick (s : State) (samples : BitVec 64) (sync first : Bool) :
    SameSettings s (s.makeTick samples sync first) := by
  have htb : (s.timebaseTick sync first).tb.settings = s.tb.settings := by
    unfold State.timebaseTick
    obtain ⟨_, _, _, e⟩ := s.slewAdjust.timebaseEffect_frame (s.slewAdjust.tb.tick sync first).effect
    rw [e]
    refine (Timebase.tick_settings _ sync first).trans ?_
    rcases s.whenTickDue_cases s.tb.slewDue fun t => t.setTb t.tb.adjust with ⟨-, -, e⟩ | ⟨-, e⟩
    · rw [State.slewAdjust, e]
      exact s.tb.adjust_settings
    · rw [State.slewAdjust, e]
  rw [makeTick_eq]
  exact (timebaseOnly (timebaseTick_frame s sync first) htb).trans (blockTick _ _ _ _)

end SameSettings

/-- What TICK answers (R1). -/
theorem exec_tick_running {s : State} (h : s.tb.state ≠ .stopped) (samples : BitVec 64) (sync first : Bool) :
    exec (.tick samples sync first) s = .next (s.completeTick.makeTick samples sync first) := by
  simp only [exec, execTick, h, if_false]

theorem exec_tick_stopped {s : State} (h : s.tb.state = .stopped) (samples : BitVec 64) (sync first : Bool) :
    exec (.tick samples sync first) s = .next s := by
  simp only [exec, execTick, h, if_true]

theorem exec_tick_settings (samples : BitVec 64) (sync first : Bool) (s : State) :
    ∃ t, exec (.tick samples sync first) s = .next t ∧ SameSettings s t := by
  by_cases h : s.tb.state = .stopped
  · exact ⟨s, exec_tick_stopped h samples sync first, .refl s⟩
  · exact ⟨_, exec_tick_running h samples sync first,
      (SameSettings.completeTick s).trans (SameSettings.makeTick _ samples sync first)⟩

/-- Settles O15. -/
theorem tickKeepsTheSettings : Obligations.TickKeepsTheSettings := by
  intro samples sync first s
  obtain ⟨t, ht, h⟩ := exec_tick_settings samples sync first s
  have htb := h.tb
  have hgroups := h.groups
  have houtputs := h.outputs
  have hsched := h.sched
  have hpanel := h.panel
  simp only [Timebase.settings, Prod.mk.injEq] at htb
  simp only [Group.settings, Prod.mk.injEq] at hgroups
  simp only [OutLine.settings, Prod.mk.injEq] at houtputs
  simp only [Schedule.settings, Prod.mk.injEq] at hsched
  simp only [State.panel, Prod.mk.injEq] at hpanel
  obtain ⟨hdiv, hper, htol, hslew, hmiss, hbad, hsync, hstep, hfreeze, hlatch, hset⟩ := htb
  obtain ⟨hstaging, hcat, hsarg⟩ := hsched
  exact ⟨t, ht, hdiv, hper, htol, hslew, hmiss, hbad, hsync, hstep, hfreeze, hlatch, hset, h.lines, h.slots,
    h.quotas, hgroups, houtputs, hstaging, hcat, hsarg, hpanel⟩

/-! ### The settings that may be written at any time -/

theorem State.settled_irqEnable (s : State) (g : GroupNo) :
    (s.settled.groups.get g).irqEnable = (s.groups.get g).irqEnable :=
  congrArg Prod.snd ((SameSettings.settled s).groups g)

theorem State.settled_deliver (s : State) (g : GroupNo) :
    (s.settled.groups.get g).deliver = (s.groups.get g).deliver :=
  congrArg Prod.fst ((SameSettings.settled s).groups g)

/-- A view of the nine groups in one word, bit by bit. -/
theorem getLsbD_groupWord (f : GroupNo → Bool) (i : Fin 16) :
    (viewWord f 0).getLsbD i.val = if h : i.val < 9 then f ⟨i.val, h⟩ else false := by
  split
  · next h =>
    have := getLsbD_viewWord f ⟨i.val, h⟩
    rwa [Nat.div_eq_of_lt i.isLt, Nat.mod_eq_of_lt i.isLt] at this
  · next h => exact getLsbD_viewWord_beyond f 0 i.val (by omega)

/-- Settles O11. -/
theorem plainSettingsAreWritten : Obligations.PlainSettingsAreWritten := by
  intro w s hr
  have taken (r : Register) (t : State) (h : registerOp r w s.settled = .ok t) :
      exec (.registerWrite r.addr w) s = .next t := exec_registerWrite_taken hr h
  refine ⟨fun i => ⟨setTimeWord s.tb.tbset i w, fun j => timeWord_setTimeWord _ _ _ _, taken (.tbset i) _ ?_⟩,
    fun g hg => taken .wsel _ ?_, fun h => exec_registerWrite_refused (r := .wsel) hr ?_,
    ⟨_, taken .girqen _ rfl, fun g => Bank.get_mapIdx _ _ _⟩, taken .sarg _ ?_,
    ⟨_, fun i => ?_, taken .erren _ rfl⟩, fun i => ⟨_, taken (.tdata i) _ rfl, fun j => ?_⟩,
    ⟨_, hostWrite_ok (a := 0x03) (op := errflagOp w) hr rfl, fun i => ?_⟩, ?_, ?_, ?_, fun i => ?_, ?_, ?_, fun i => ?_⟩
  · simp only [registerOp, tbsetOp, State.settled_tb]
    rfl
  · have hlt : w.toNat < 9 := by omega
    simp only [registerOp, wselOp, hlt, dif_pos]
    rw [show (⟨w.toNat, hlt⟩ : GroupNo) = g from Fin.ext hg]
  · exact dif_neg (by omega)
  · simp only [registerOp, sargOp, State.settled_sched]
    rfl
  · rw [BitVec.getLsbD_extractLsb']
    simp
  · rw [Bank.get_set, State.settled_tdata]
  · rw [BitVec.getLsbD_and, BitVec.getLsbD_not, BitVec.getLsbD_extractLsb']
    simp
  · rw [s.readAddr_eq 0x03 .errflag rfl hr]
    exact toNat_widen (by decide) _
  · rw [s.readAddr_eq 0x3F (.tbset 2) rfl hr, s.readAddr_eq 0x3E (.tbset 1) rfl hr,
      s.readAddr_eq 0x3D (.tbset 0) rfl hr]
    simp only [State.readRegister, State.settled_tb]
    exact timeWord_append _
  · rw [s.readAddr_eq 0x07 .wsel rfl hr]
    simp only [State.readRegister, State.settled_wsel, BitVec.toNat_ofNat]
    omega
  · rw [s.readAddr_eq 0x1B .girqen rfl hr]
    simp only [State.readRegister, State.settled_irqEnable]
    exact getLsbD_groupWord _ i
  · rw [s.readAddr_eq 0x61 .sarg rfl hr]
    simp only [State.readRegister, State.settled_sched]
  · rw [s.readAddr_eq 0x04 .erren rfl hr]
    simp only [State.readRegister, State.settled_errEnable]
    exact toNat_widen (by decide) _
  · rw [s.readAddr_eq (BitVec.ofNat 8 (0x80 + i)) (.tdata i) rfl hr]
    simp only [State.readRegister, State.settled_tdata]

end Sys2Proof.Machine
end

section
/-!
PROOFS. The Timebase's part of a tick: the advance, an expiry taken before the tick's pulse, and the pulse.
Settles O14, O16 and O18.
-/
namespace Sys2Proof.Machine
-- Declarations in order: a worker that waits for the kernel holds 1 GiB of the check's memory.
set_option Elab.async false

/-! ### The advance of the coming tick (R2, R13) -/

/-- An expiry leaves all but the lock, the miss counter and the miss timer. -/
theorem State.missExpiry_tb_frame (s : State) : ∃ st mc mr mt ts, s.missExpiry.tb =
    { s.tb with state := st, missCount := mc, missReached := mr, missTimer := mt, tickState := ts } := by
  rw [State.missExpiry_tb]
  unfold Timebase.expire
  split
  · split <;> exact ⟨_, _, _, _, _, rfl⟩
  · exact ⟨_, _, _, _, _, rfl⟩

/-- The Timebase after the advance of the coming tick, SYNC sampled (R2, R10). -/
def Timebase.coming (t : Timebase) (sync : Bool) : Timebase :=
  { t with
    counter := t.counter + t.comingAdvance.amount, slew := t.comingSlew, advance := .normal
    missTimer := t.missTimer.map (· - 1), syncLevel := some sync }

/-- What the Timebase answers to the coming tick, an adjustment that falls at it taken (R13). -/
def Timebase.comingTick (t : Timebase) (sync first : Bool) : TickEffect :=
  (if t.slewDue then t.adjust else t).tick sync first

theorem Timebase.advanced_adjusted (t : Timebase) (sync : Bool) :
    (if t.slewDue then t.adjust else t).advanced sync = t.coming sync := by
  obtain ⟨sl, h, hsl⟩ := t.adjusted
  rw [h, Timebase.coming, ← hsl]
  rfl

theorem Timebase.sees_adjusted (t : Timebase) (sync : Bool) :
    (if t.slewDue then t.adjust else t).sees sync = t.sees sync := by
  obtain ⟨sl, h, -⟩ := t.adjusted
  rw [h]
  rfl

theorem Timebase.comingTick_of_not_sees {t : Timebase} {sync : Bool} (h : t.sees sync = false) (first : Bool) :
    t.comingTick sync first =
      { effect := { tb := (t.coming sync).ticked }, before := (t.coming sync).counter } := by
  unfold Timebase.comingTick Timebase.tick
  simp only [Timebase.sees_adjusted, h, Timebase.advanced_adjusted, Bool.false_eq_true, if_false]

theorem Timebase.comingTick_of_sees {t : Timebase} {sync : Bool} (h : t.sees sync = true) (first : Bool) :
    let x := (t.coming sync).expireFirst first
    t.comingTick sync first =
      { effect := {
          tb := x.tb.pulse.effect.tb.ticked
          events := x.events ++ x.tb.pulse.effect.events
          notice := x.notice || x.tb.pulse.effect.notice }
        step := x.tb.pulse.step, before := (t.coming sync).counter } := by
  unfold Timebase.comingTick Timebase.tick
  simp only [Timebase.sees_adjusted, h, Timebase.advanced_adjusted, if_true]

theorem slewAdjust_tick {s : State} (h : s.tb.state ≠ .stopped) (sync first : Bool) :
    s.slewAdjust.tb.tick sync first = s.tb.comingTick sync first := by
  rw [State.slewAdjust_eq s h]
  rfl

/-- The time value and epoch of a tick are those of the most recent tick (R20). -/
theorem Timebase.comingTick_ticked (t : Timebase) (sync first : Bool) :
    ∃ u : Timebase, (t.comingTick sync first).effect.tb = u.ticked := by
  cases h : t.sees sync with
  | false => exact ⟨_, by rw [Timebase.comingTick_of_not_sees h]⟩
  | true => exact ⟨_, by rw [Timebase.comingTick_of_sees h]⟩

theorem Timebase.expireFirst_syncLevel (t : Timebase) (b : Bool) :
    (t.expireFirst b).tb.syncLevel = t.syncLevel := by
  unfold Timebase.expireFirst Timebase.expire
  split
  · split <;> rfl
  · rfl

theorem Timebase.lockOn_syncLevel (t : Timebase) (e : Int) : (t.lockOn e).tb.syncLevel = t.syncLevel := by
  unfold Timebase.lockOn
  split <;> rfl

theorem Timebase.badPulse_syncLevel (t : Timebase) (e : Int) : (t.badPulse e).tb.syncLevel = t.syncLevel := by
  unfold Timebase.badPulse
  split
  · split <;> rfl
  · rfl

theorem Timebase.pulse_syncLevel (t : Timebase) : t.pulse.effect.tb.syncLevel = t.syncLevel := by
  unfold Timebase.pulse
  simp only
  split
  · exact Timebase.lockOn_syncLevel _ _
  · split
    · exact Timebase.lockOn_syncLevel _ _
    · exact Timebase.badPulse_syncLevel _ _

theorem Timebase.comingTick_syncLevel (t : Timebase) (sync first : Bool) :
    (t.comingTick sync first).effect.tb.syncLevel = some sync := by
  cases h : t.sees sync with
  | false => rw [Timebase.comingTick_of_not_sees h]; rfl
  | true =>
    rw [Timebase.comingTick_of_sees h]
    exact (Timebase.pulse_syncLevel _).trans (Timebase.expireFirst_syncLevel _ _)

/-- What TICK makes of the Timebase. -/
theorem completeTick_makeTick_tb {s : State} (h : s.tb.state ≠ .stopped) (samples : BitVec 64) (sync first : Bool) :
    (s.completeTick.makeTick samples sync first).tb = (s.missExpiry.tb.comingTick sync first).effect.tb := by
  rw [makeTick_tb, slewAdjust_tick (completeTick_state_ne_stopped h), completeTick_tb]

theorem Timebase.sees_iff (t : Timebase) (sync : Bool) :
    t.sees sync = true ↔ t.syncLevel = some false ∧ sync = true ∧ t.syncEnable = true := by
  simp [Timebase.sees, and_assoc]

theorem Timebase.expiryDue_iff (t : Timebase) :
    t.expiryDue = true ↔ t.state = .locked ∧ t.missTimer = some 0 := by
  simp [Timebase.expiryDue]

/-- The miss timer that has not run out before the tick runs out at it exactly where one tick is left. -/
theorem Timebase.coming_expiryDue {t : Timebase} (hd : t.expiryDue = false) (sync : Bool) :
    (t.coming sync).expiryDue = (decide (t.state = .locked) && t.missTimer == some 1) := by
  have hnot := (Bool.eq_false_iff.1 hd)
  rw [ne_eq, Timebase.expiryDue_iff] at hnot
  rw [Bool.eq_iff_iff, Timebase.expiryDue_iff]
  simp only [Timebase.coming, Option.map_eq_some_iff, Bool.and_eq_true, decide_eq_true_eq, beq_iff_eq]
  constructor
  · rintro ⟨hl, k, hk, hk0⟩
    refine ⟨hl, ?_⟩
    have : k ≠ 0 := by rintro rfl; exact hnot ⟨hl, hk⟩
    rw [hk, show k = 1 by omega]
  · rintro ⟨hl, hk⟩
    exact ⟨hl, 1, hk, rfl⟩

/-- Settles O14. -/
theorem tickAdvancesTheTimeValue : Obligations.TickAdvancesTheTimeValue := by
  intro samples sync first s
  refine ⟨fun h => exec_tick_stopped h samples sync first, fun h => ⟨_, exec_tick_running h samples sync first, ?_⟩,
    fun h hp => ⟨_, exec_tick_running h samples sync first, ?_⟩⟩
  · rw [completeTick_makeTick_tb h]
    refine ⟨Timebase.comingTick_syncLevel _ _ _, ?_⟩
    obtain ⟨u, hu⟩ := Timebase.comingTick_ticked s.missExpiry.tb sync first
    rw [hu]
    exact ⟨rfl, rfl⟩
  · rw [completeTick_makeTick_tb h]
    have hsees : s.missExpiry.tb.sees sync = false := by
      rw [Bool.eq_false_iff, ne_eq, Timebase.sees_iff]
      obtain ⟨_, _, _, _, _, e⟩ := s.missExpiry_tb_frame
      rw [e]
      exact hp
    rw [Timebase.comingTick_of_not_sees hsees]
    refine ⟨?_, ?_, ?_, ?_, rfl, fun hd => ?_⟩
    · obtain ⟨_, _, _, _, _, e⟩ := s.missExpiry_tb_frame
      rw [e]
      rfl
    · obtain ⟨_, _, _, _, _, e⟩ := s.missExpiry_tb_frame
      rw [e]
      rfl
    · obtain ⟨_, _, _, _, _, e⟩ := s.missExpiry_tb_frame
      rw [e]
      rfl
    · obtain ⟨_, _, _, _, _, e⟩ := s.missExpiry_tb_frame
      rw [e]
      rfl
    · rw [State.missExpiry_eq s hd]
      refine ⟨rfl, rfl, rfl, rfl, ?_⟩
      change (if (s.tb.coming sync).expiryDue && _ then _ else _) = _
      rw [Timebase.coming_expiryDue hd]
      simp only [Timebase.coming, Bool.and_eq_true, decide_eq_true_eq, beq_iff_eq, and_assoc]
      exact if_congr (and_congr_right fun _ => and_congr_right fun _ => decide_eq_true_iff) rfl rfl

/-! ### What the Timebase's effect does to the part (R18, R19) -/

/-- A claim that is taken behind all that wait is put at the end (R55). -/
theorem insertClaim_last {c : Claim} {cs : List Claim} (h : ∀ d ∈ cs, d.source.rank ≤ c.source.rank) :
    insertClaim c cs = cs ++ [c] := by
  induction cs with
  | nil => rfl
  | cons d ds ih =>
    obtain ⟨hd, hds⟩ := List.forall_mem_cons.1 h
    rw [insertClaim, if_pos hd, ih hds, List.cons_append]

/-- The claims of the Timebase's records. -/
def syncClaims (es : List SyncEvent) (st : Stamp) : List Claim :=
  es.map fun x => ⟨.timebase, true, syncRecord x st⟩

theorem insertClaim_output_syncClaims (es : List SyncEvent) (st : Stamp) (b : Bool) (r : Record) :
    insertClaim ⟨.output, b, r⟩ (syncClaims es st) = syncClaims es st ++ [⟨.output, b, r⟩] := by
  refine insertClaim_last fun d hd => ?_
  obtain ⟨_, -, rfl⟩ := List.mem_map.1 hd
  exact Nat.zero_le _

theorem foldl_offer_sync (es : List SyncEvent) (s : State) (h : ∀ c ∈ s.claims, c.source.rank = 0) :
    es.foldl (fun t e => t.offer .timebase true (syncRecord e t.tickStamp)) s =
      { s with claims := s.claims ++ syncClaims es s.tickStamp } := by
  induction es generalizing s with
  | nil => simp [syncClaims]
  | cons e es ih =>
    have hlast : insertClaim ⟨.timebase, true, syncRecord e s.tickStamp⟩ s.claims =
        s.claims ++ [⟨.timebase, true, syncRecord e s.tickStamp⟩] :=
      insertClaim_last fun d hd => (h d hd).le
    have hranks : ∀ c ∈ (s.offer .timebase true (syncRecord e s.tickStamp)).claims, c.source.rank = 0 := by
      intro c hc
      rcases mem_insertClaim.1 hc with rfl | hc
      · rfl
      · exact h c hc
    rw [List.foldl_cons, ih _ hranks]
    simp only [State.offer, hlast, List.append_assoc, syncClaims, List.map_cons, List.singleton_append]
    rfl

/-- The ENTER record that the HOLDOVER cause makes where the stage was RUNNING (R18, R96, R101). -/
def holdoverClaims (freezes : Bool) (st : Stamp) : List Claim :=
  if freezes then [⟨.output, true, freezeRecord false { holdover := true } { st with unsync := true }⟩] else []

/-- What a Timebase effect makes of a part with no claim waiting. -/
theorem State.timebaseEffect_eq {s : State} (hc : s.claims = []) (x : TbEffect) :
    s.timebaseEffect x = { s with
      tb := x.tb
      causes := if x.notice then { s.causes with holdover := true } else s.causes
      claims := syncClaims x.events (s.setTb x.tb).tickStamp ++
        holdoverClaims (x.notice && !s.frozen) (s.setTb x.tb).tickStamp
      errFlags := s.errFlags ||| (if x.events.any SyncEvent.raises then 0x08 else 0) |||
        (if x.notice && !s.frozen then 0x40 else 0) } := by
  have hflag (t : State) (c : Bool) :
      t.setFlagIf c .sync = { t with errFlags := t.errFlags ||| (if c then 0x08 else 0) } := by
    cases c
    · simp [State.setFlagIf]
    · rfl
  unfold State.timebaseEffect
  simp only
  rw [foldl_offer_sync _ _ (by simp [hc]), State.setTb_claims, hc, List.nil_append, hflag]
  cases x.notice with
  | false => simp [State.setTb, holdoverClaims]
  | true =>
    simp only [if_true, Bool.true_and, State.addCause]
    have hfrozen : State.frozen { s.setTb x.tb with
        claims := syncClaims x.events (s.setTb x.tb).tickStamp
        errFlags := (s.setTb x.tb).errFlags ||| (if x.events.any SyncEvent.raises then 0x08 else 0) } = s.frozen := rfl
    rw [hfrozen]
    cases s.frozen with
    | true => simp [State.setTb, holdoverClaims, Causes.add]
    | false =>
      simp only [Bool.false_eq_true, if_false, State.offer, State.setFlag, insertClaim_output_syncClaims,
        Bool.not_false, if_true,
        holdoverClaims]
      rfl

/-- The Timebase's part of a tick on a part with no claim waiting. -/
theorem timebaseTick_eq {s : State} (hr : s.tb.state ≠ .stopped) (hc : s.claims = []) {sync first : Bool}
    {x : TickEffect} (hx : s.tb.comingTick sync first = x) :
    s.timebaseTick sync first = { s with
      tb := x.effect.tb
      causes := if x.effect.notice then { s.causes with holdover := true } else s.causes
      claims := syncClaims x.effect.events (s.setTb x.effect.tb).tickStamp ++
        holdoverClaims (x.effect.notice && !s.frozen) (s.setTb x.effect.tb).tickStamp
      errFlags := s.errFlags ||| (if x.effect.events.any SyncEvent.raises then 0x08 else 0) |||
        (if x.effect.notice && !s.frozen then 0x40 else 0) } := by
  unfold State.timebaseTick
  rw [slewAdjust_tick hr, hx, State.slewAdjust_eq s hr]
  exact State.timebaseEffect_eq (s := { s with tb := if s.tb.slewDue then s.tb.adjust else s.tb }) hc x.effect

theorem blockTick_unstepped (s : State) (samples : BitVec 64) (v : Time) :
    (s.blockTick samples none v).tb = s.tb ∧ (s.blockTick samples none v).causes = s.causes ∧
      (s.blockTick samples none v).claims = s.claims ∧ (s.blockTick samples none v).errFlags = s.errFlags :=
  ⟨rfl, rfl, rfl, rfl⟩

/-- A tick that makes no step adds nothing to what the Timebase's part of it does to the freeze causes, the
claims and the error flags. -/
theorem exec_tick_unstepped {s : State} (hr : s.tb.state ≠ .stopped) (hd : s.tb.expiryDue = false)
    (samples : BitVec 64) {sync first : Bool} {x : TickEffect} (hx : s.tb.comingTick sync first = x)
    (hstep : x.step = none) : ∃ t, exec (.tick samples sync first) s = .next t ∧
      t.tb = x.effect.tb ∧
      t.causes = (if x.effect.notice then { s.causes with holdover := true } else s.causes) ∧
      t.claims = syncClaims x.effect.events (s.setTb x.effect.tb).tickStamp ++
        holdoverClaims (x.effect.notice && !s.frozen) (s.setTb x.effect.tb).tickStamp ∧
      t.errFlags = s.completeTick.errFlags ||| (if x.effect.events.any SyncEvent.raises then 0x08 else 0) |||
        (if x.effect.notice && !s.frozen then 0x40 else 0) := by
  have htb : s.completeTick.tb = s.tb := by rw [completeTick_tb, State.missExpiry_eq s hd]
  have hcauses : s.completeTick.causes = s.causes := by rw [completeTick_causes, State.missExpiry_eq s hd]
  have hfrozen : s.completeTick.frozen = s.frozen := by rw [State.frozen, hcauses, State.frozen]
  refine ⟨s.completeTick.makeTick samples sync first, exec_tick_running hr samples sync first, ?_⟩
  have hclaims := completeTick_claims s
  generalize s.completeTick = u at *
  have htick := timebaseTick_eq (s := u) (x := x) (by rwa [htb]) hclaims (by rwa [htb])
  obtain ⟨etb, ecauses, eclaims, eflags⟩ := blockTick_unstepped (u.timebaseTick sync first) samples x.before
  rw [makeTick_eq, slewAdjust_tick (by rwa [htb]), htb, hx, hstep, etb, ecauses, eclaims, eflags, htick, hcauses,
    hfrozen]
  exact ⟨rfl, rfl, rfl, rfl⟩

/-! ### An expiry taken before the pulse of its tick (R17) -/

/-- The Timebase at the coming tick after an expiry that is taken before its pulse. -/
def Timebase.beforePulse (t : Timebase) (sync first : Bool) : Timebase :=
  { t.coming sync with
    state := if t.losesFirst first then .holdover else t.state
    missCount := if t.expiresFirst first then t.missCount + 1 else t.missCount
    missReached := t.losesFirst first || t.missReached
    missTimer := if t.losesFirst first then none
      else if t.expiresFirst first then some t.period.toNat else t.missTimer.map (· - 1) }

/-- The LOST record of an expiry taken before the pulse that reaches the miss limit. -/
def lostEvents (lost : Bool) : List SyncEvent := if lost then [⟨.lost, 0⟩] else []

theorem Timebase.coming_expireFirst {t : Timebase} (hd : t.expiryDue = false) (sync first : Bool) :
    (t.coming sync).expireFirst first = {
      tb := t.beforePulse sync first, events := lostEvents (t.losesFirst first)
      notice := t.losesFirst first && t.freezeOnHoldover } := by
  have hexp : (first && (t.coming sync).expiryDue) = t.expiresFirst first := by
    rw [Timebase.coming_expiryDue hd, Timebase.expiresFirst, Bool.and_assoc]
  unfold Timebase.expireFirst Timebase.beforePulse Timebase.losesFirst
  rw [hexp]
  cases t.expiresFirst first with
  | false => simp [lostEvents, Timebase.coming]
  | true =>
    by_cases hm : t.missCount + 1 = t.missLimit
    · have hm' : (t.coming sync).missCount + 1 = (t.coming sync).missLimit := hm
      simp only [if_true, Timebase.expire, hm', hm, decide_true, Bool.and_self, lostEvents, Bool.true_or,
        Bool.true_and]
      rfl
    · have hm' : (t.coming sync).missCount + 1 ≠ (t.coming sync).missLimit := hm
      simp only [if_true, Timebase.expire, hm', hm, decide_false, Bool.and_false, lostEvents, Bool.false_or,
        Bool.false_and, if_false, Bool.false_eq_true]
      rfl

/-- The Timebase LOCKED by a pulse (R16). -/
theorem Timebase.lockOn_eq (t : Timebase) (e : Int) :
    t.lockOn e = {
      tb := { t with
        state := .locked, missCount := 0, badCount := 0
        missReached := decide (t.state = .locked) && t.missReached
        badReached := decide (t.state = .locked) && t.badReached, missTimer := t.pulseTimer }
      events := if t.state = .locked then [] else [⟨.locked, e⟩] } := by
  by_cases h : t.state = .locked
  · simp [Timebase.lockOn, h]
  · simp [Timebase.lockOn, h]

theorem Timebase.ticked_eq {t : Timebase} (h : t.expiryDue = false) :
    t.ticked = { t with tickTime := t.counter, tickEpoch := t.epoch, tickState := t.state } := by
  simp [Timebase.ticked, Timebase.stateOfTick, h]

/-- The Timebase is LOCKED before a pulse where it was and no expiry has lost the lock. -/
def Timebase.staysLocked (t : Timebase) (first : Bool) : Bool :=
  decide (t.state = .locked) && !t.losesFirst first

theorem Timebase.beforePulse_locked (t : Timebase) (sync first : Bool) :
    (t.beforePulse sync first).state = .locked ↔ t.staysLocked first = true := by
  unfold Timebase.beforePulse Timebase.staysLocked
  cases t.losesFirst first <;> simp

/-- The Timebase after a good, slewed or stepped pulse (R16), at the time value and in the epoch given. -/
def Timebase.relocked (t : Timebase) (first : Bool) (now : Time) (epoch : BitVec 4) (e : Int)
    (slew : Option Slew) : Timebase :=
  { t with
    state := .locked, tickState := .locked, tickTime := now, tickEpoch := epoch
    counter := now, epoch := epoch, lastError := e, syncLevel := some true, missCount := 0, badCount := 0
    missReached := t.staysLocked first && t.missReached, badReached := t.staysLocked first && t.badReached
    missTimer := some (t.period.toNat + t.tolerance.toNat), advance := .normal, slew := slew }

/-- The LOCKED record of a pulse (R16). -/
def lockedEvents (locked : Bool) (e : Int) : List SyncEvent := if locked then [] else [⟨.locked, e⟩]

theorem Timebase.beforePulse_lockOn {t : Timebase} (hp : t.period ≠ 0) (first : Bool) (now : Time)
    (epoch : BitVec 4) (e : Int) (slew : Option Slew) :
    let x := Timebase.lockOn { t.beforePulse true first with
      counter := now, epoch := epoch, lastError := e, slew := slew } e
    x.tb.ticked = t.relocked first now epoch e slew ∧ x.events = lockedEvents (t.staysLocked first) e ∧
      x.notice = false := by
  have hl := t.beforePulse_locked true first
  intro x
  have hx : x = _ := Timebase.lockOn_eq _ e
  have hper : t.period.toNat ≠ 0 := fun h => hp (BitVec.eq_of_toNat_eq h)
  have hnd : x.tb.expiryDue = false := by
    rw [hx, Bool.eq_false_iff, ne_eq, Timebase.expiryDue_iff]
    rintro ⟨-, h⟩
    have : t.period.toNat + t.tolerance.toNat = 0 := Option.some.inj h
    omega
  rw [Timebase.ticked_eq hnd, hx]
  have hmiss : (decide ((t.beforePulse true first).state = .locked) && (t.beforePulse true first).missReached) =
      (t.staysLocked first && t.missReached) := by
    rw [Bool.eq_iff_iff, Bool.and_eq_true, decide_eq_true_eq, hl, Bool.and_eq_true]
    refine and_congr_right fun h => ?_
    have hlost : t.losesFirst first = false := by simpa using (Bool.and_eq_true_iff.1 h).2
    simp [Timebase.beforePulse, hlost]
  refine ⟨?_, ?_, rfl⟩
  · have hbad : decide ((t.beforePulse true first).state = .locked) = t.staysLocked first := by
      rw [Bool.eq_iff_iff, decide_eq_true_eq, hl]
    rw [hbad] at hmiss
    simp only [hbad, hmiss]
    rfl
  · simp only [hl]
    rfl

/-! ### The pulse of the coming tick (R11 to R16) -/

/-- V (R11): the time value that the advance of the coming tick reaches. -/
def Timebase.comingTime (t : Timebase) : Time := t.counter + t.comingAdvance.amount

/-- The phase error of a pulse at the coming tick (R11). -/
def Timebase.comingError (t : Timebase) : Int := phaseError t.comingTime t.period.toNat

/-- The Timebase as a bad pulse finds it: nothing is pending, and the error is the last phase error (R12). -/
def Timebase.faulting (t : Timebase) (first : Bool) : Timebase :=
  { t.beforePulse true first with slew := none, lastError := t.comingError }

section Pulse
variable {t : Timebase} (hp : t.period ≠ 0) (hd : t.expiryDue = false) (hs : t.sees true = true) (first : Bool)
include hp hd hs

theorem Timebase.comingTick_good (he : t.comingError.natAbs ≤ t.slewLimit.toNat) :
    t.comingTick true first = {
      effect := {
        tb := t.relocked first t.comingTime t.epoch t.comingError (slewFor t.period.toNat t.comingError)
        events := lostEvents (t.losesFirst first) ++ lockedEvents (t.staysLocked first) t.comingError
        notice := t.losesFirst first && t.freezeOnHoldover }
      before := t.comingTime } := by
  have hpulse : (t.beforePulse true first).pulse = ⟨Timebase.lockOn { t.beforePulse true first with
      counter := t.comingTime, epoch := t.epoch, lastError := t.comingError
      slew := slewFor t.period.toNat t.comingError } t.comingError, none⟩ := if_pos he
  obtain ⟨htb, hevents, hnotice⟩ := Timebase.beforePulse_lockOn hp first t.comingTime t.epoch t.comingError
    (slewFor t.period.toNat t.comingError)
  rw [Timebase.comingTick_of_sees hs, Timebase.coming_expireFirst hd]
  simp only [hpulse, htb, hevents, hnotice, Bool.or_false]
  rfl

theorem Timebase.comingTick_stepped (hstep : t.stepAllow = true) (he : t.slewLimit.toNat < t.comingError.natAbs) :
    t.comingTick true first = {
      effect := {
        tb := t.relocked first (t.comingTime - BitVec.ofInt 48 t.comingError) (t.epoch + 1) t.comingError none
        events := lostEvents (t.losesFirst first) ++
          ⟨.step, t.comingError⟩ :: lockedEvents (t.staysLocked first) t.comingError
        notice := t.losesFirst first && t.freezeOnHoldover }
      step := some (-BitVec.ofInt 48 t.comingError), before := t.comingTime } := by
  let x := Timebase.lockOn { t.beforePulse true first with
    counter := t.comingTime - BitVec.ofInt 48 t.comingError, epoch := t.epoch + 1, lastError := t.comingError
    slew := none } t.comingError
  have hpulse : (t.beforePulse true first).pulse =
      ⟨{ x with events := ⟨.step, t.comingError⟩ :: x.events }, some (-BitVec.ofInt 48 t.comingError)⟩ :=
    (if_neg (Nat.not_le.2 he)).trans (if_pos hstep)
  obtain ⟨htb, hevents, hnotice⟩ := Timebase.beforePulse_lockOn hp first
    (t.comingTime - BitVec.ofInt 48 t.comingError) (t.epoch + 1) t.comingError none
  rw [Timebase.comingTick_of_sees hs, Timebase.coming_expireFirst hd]
  simp only [hpulse, x, htb, hevents, hnotice, Bool.or_false]
  rfl

omit hp in
theorem Timebase.comingTick_bad (hstep : t.stepAllow = false) (he : t.slewLimit.toNat < t.comingError.natAbs)
    {x : TbEffect} (hx : (t.faulting first).badPulse t.comingError = x) (hnot : x.tb.expiryDue = false) :
    t.comingTick true first = {
      effect := {
        tb := { x.tb with tickTime := x.tb.counter, tickEpoch := x.tb.epoch, tickState := x.tb.state }
        events := lostEvents (t.losesFirst first) ++ x.events
        notice := (t.losesFirst first && t.freezeOnHoldover) || x.notice }
      before := t.comingTime } := by
  have hpulse : (t.beforePulse true first).pulse = ⟨(t.faulting first).badPulse t.comingError, none⟩ :=
    (if_neg (Nat.not_le.2 he)).trans (if_neg (Bool.eq_false_iff.1 hstep))
  rw [Timebase.comingTick_of_sees hs, Timebase.coming_expireFirst hd, ← Timebase.ticked_eq hnot]
  simp only [hpulse, hx]
  rfl

end Pulse

theorem Timebase.relocked_tickStamp (s : State) (t : Timebase) (first : Bool) (now : Time) (epoch : BitVec 4)
    (e : Int) (slew : Option Slew) :
    (s.setTb (t.relocked first now epoch e slew)).tickStamp = ⟨now, epoch, false⟩ := rfl

theorem raises_lost_locked (lost locked : Bool) (e : Int) :
    (lostEvents lost ++ lockedEvents locked e).any SyncEvent.raises = lost := by
  cases lost <;> cases locked <;> rfl

/-- Settles O16. -/
theorem goodPulseLocksAndSlews : Obligations.GoodPulseLocksAndSlews := by
  intro samples first s hs hr hlevel henable hd v e lost locked he
  have hsees : s.tb.sees true = true := (s.tb.sees_iff true).2 ⟨hlevel, rfl, henable⟩
  obtain ⟨t, ht, htb, hcauses, hclaims, hflags⟩ := exec_tick_unstepped hr hd samples
    (Timebase.comingTick_good hs.period_pos hd hsees first he) rfl
  refine ⟨t, ht, htb, hcauses, ?_, ?_⟩
  · rw [hflags, raises_lost_locked]
  · rw [hclaims, Timebase.relocked_tickStamp]
    rfl

/-! ### A bad pulse (R16, R18) -/

theorem Timebase.badPulse_unlocked {t : Timebase} (h : t.state ≠ .locked) (e : Int) :
    t.badPulse e = { tb := t, events := [⟨.fault, e⟩] } := if_neg h

theorem Timebase.badPulse_below {t : Timebase} (h : t.state = .locked) (hb : t.badCount + 1 ≠ t.badLimit) (e : Int) :
    t.badPulse e = {
      tb := { t with badCount := t.badCount + 1, missTimer := t.pulseTimer }, events := [⟨.fault, e⟩] } :=
  (if_pos h).trans (if_neg hb)

theorem Timebase.badPulse_limit {t : Timebase} (h : t.state = .locked) (hb : t.badCount + 1 = t.badLimit) (e : Int) :
    t.badPulse e = {
      tb := { t with state := .holdover, badCount := t.badCount + 1, badReached := true, missTimer := none }
      events := [⟨.fault, e⟩, ⟨.lost, e⟩], notice := t.freezeOnHoldover } :=
  (if_pos h).trans (if_pos hb)

theorem Timebase.expiryDue_of_state {t : Timebase} (h : t.state ≠ .locked) : t.expiryDue = false := by
  simp [Timebase.expiryDue, h]

theorem Timebase.expiryDue_of_missTimer {t : Timebase} {n : Nat} (h : t.missTimer = some n) (hn : n ≠ 0) :
    t.expiryDue = false := by
  simp [Timebase.expiryDue, h, hn]

/-- A bad pulse always raises SYNC (R19). -/
theorem raises_fault (lost : Bool) (e : Int) : (lostEvents lost ++ [(⟨.fault, e⟩ : SyncEvent)]).any SyncEvent.raises = true := by
  cases lost <;> rfl

/-- Out of LOCKED the miss timer stands before a pulse (R17). -/
theorem Timebase.faulting_missTimer {t : Timebase} (ht : t.missTimer.isSome = true ↔ t.state = .locked)
    {first : Bool} (h : (t.faulting first).state ≠ .locked) : (t.faulting first).missTimer = none := by
  cases hl : t.losesFirst first with
  | true => simp [Timebase.faulting, Timebase.beforePulse, hl]
  | false =>
    have hstate : t.state ≠ .locked := by simpa [Timebase.faulting, Timebase.beforePulse, hl] using h
    have hnone : t.missTimer = none := by simpa using mt ht.1 hstate
    have hexp : t.expiresFirst first = false := by simp [Timebase.expiresFirst, hnone]
    simp [Timebase.faulting, Timebase.beforePulse, hl, hexp, hnone]

/-- Settles O18. -/
theorem badPulseCountsTowardsHoldover : Obligations.BadPulseCountsTowardsHoldover := by
  intro samples first s hs hr hlevel henable hd hstep v e lost state he
  have hsees : s.tb.sees true = true := (s.tb.sees_iff true).2 ⟨hlevel, rfl, henable⟩
  have hper : s.tb.period.toNat ≠ 0 := fun h => hs.period_pos (BitVec.eq_of_toNat_eq h)
  have hstate : (s.tb.faulting first).state = state := rfl
  have hlost (h : state = .locked) : s.tb.losesFirst first = false := by
    cases hl : s.tb.losesFirst first with
    | true => simp [state, lost, hl] at h
    | false => rfl
  have hlocked (h : state = .locked) : s.tb.state = .locked := by
    simpa [state, lost, hlost h] using h
  have tick {x : TbEffect} (hx : (s.tb.faulting first).badPulse e = x) (hnot : x.tb.expiryDue = false) :=
    exec_tick_unstepped hr hd samples (Timebase.comingTick_bad hd hsees first hstep he hx hnot) rfl
  by_cases hl : state = .locked
  · by_cases hb : s.tb.badCount + 1 = s.tb.badLimit
    · obtain ⟨t, ht, htb, hcauses, hclaims, hflags⟩ := tick (Timebase.badPulse_limit (hstate.trans hl) hb e)
        (Timebase.expiryDue_of_state fun h => TimebaseState.noConfusion h)
      simp only [hlost hl] at hcauses hclaims hflags
      refine ⟨t, ht, ?_, fun h => absurd hl h, fun _ h => absurd hb h, fun _ _ => ⟨htb, hcauses, hclaims⟩⟩
      rw [hflags]
      simp only [lost, hlost hl, hl, hb, and_self, decide_true, Bool.or_true, Bool.true_and]
      rfl
    · obtain ⟨t, ht, htb, hcauses, hclaims, hflags⟩ := tick (Timebase.badPulse_below (hstate.trans hl) hb e)
        (Timebase.expiryDue_of_missTimer rfl fun h => hper (Nat.eq_zero_of_add_eq_zero_right h))
      simp only [hlost hl] at hcauses hclaims hflags
      refine ⟨t, ht, ?_, fun h => absurd hl h, fun _ _ => ⟨?_, hcauses, ?_⟩, fun _ h => absurd h hb⟩
      · rw [hflags]
        simp only [lost, hlost hl, hb, and_false, decide_false, Bool.or_false, Bool.false_and]
        rfl
      · rw [htb]
        simp only [hstate, hl]
        rw [← hlocked hl]
        rfl
      · rw [hclaims]
        simp only [hstate, hl]
        rfl
  · obtain ⟨t, ht, htb, hcauses, hclaims, hflags⟩ := tick (Timebase.badPulse_unlocked (hstate.trans_ne hl) e)
      (Timebase.expiryDue_of_state (hstate.trans_ne hl))
    have htimer := Timebase.faulting_missTimer hs.missTimer_iff_locked (hstate.trans_ne hl)
    refine ⟨t, ht, ?_, fun _ => ⟨?_, ?_, ?_⟩, fun h => absurd h hl, fun h => absurd h hl⟩
    · rw [hflags]
      simp only [raises_fault, hl, false_and, decide_false, Bool.or_false]
      rfl
    · rw [htb]
      simp only [htimer]
      rfl
    · rw [hcauses]
      simp only [Bool.or_false]
      rfl
    · have hunsync : (state != .locked) = true := bne_iff_ne.2 hl
      have hstamp : ∀ u : Timebase, u.tickTime = v → u.tickEpoch = s.tb.epoch → u.tickState = state →
          (s.setTb u).tickStamp = ⟨v, s.tb.epoch, true⟩ := by
        intro u h1 h2 h3
        simp only [State.tickStamp, State.setTb_tb, h1, h2, h3, hunsync]
      rw [hclaims, hstamp _ rfl rfl rfl]
      by_cases hlf : s.tb.losesFirst first = true
      · simp only [Bool.or_false, lost, hlf, if_true]
        rfl
      · simp only [Bool.or_false, lost, hlf, Bool.false_and]
        rfl

end Sys2Proof.Machine
end

section
/-!
PROOFS. The tick of a stepped pulse: what it offers, the run notice, and the entries it takes. Settles O17.
-/
namespace Sys2Proof.Machine
-- Declarations in order: a worker that waits for the kernel holds 1 GiB of the check's memory.
set_option Elab.async false

/-! ### The entries taken at a step (R137 to R139) -/

/-- What the Schedule Unit writes, put back, gives the state before it. -/
theorem ScheduleOnly.restore {s t : State} (h : ScheduleOnly s t) :
    { t with outputs := s.outputs, sched := s.sched, claims := s.claims, errFlags := s.errFlags } = s := by
  obtain ⟨_, _, _, _, rfl⟩ := h
  rfl

theorem ScheduleOnly.rest {s t : State} (h : ScheduleOnly s t) :
    t.tb = s.tb ∧ t.causes = s.causes ∧ t.queues = s.queues := by
  obtain ⟨_, _, _, _, rfl⟩ := h
  exact ⟨rfl, rfl, rfl⟩

/-- An entry reached at a step tick, taken under the stamp of that tick. -/
def State.takeReached (v : Time) (st : Stamp) (b : State) (a : Active) : State :=
  if reached v a.entry.due = true then b.fireEntry a.entry false true st
  else match a.entry.late with
    | .fire => b.fireEntry a.entry true true st
    | .skip => b.skipEntry a.entry st

theorem State.takeReached_eq {v : Time} {st : Stamp} {b : State} (h : b.tickStamp = st) (a : Active) :
    b.takeAtStep v a.entry = State.takeReached v st b a := by
  subst h
  rfl

theorem State.tickStamp_of_tb {s t : State} (h : t.tb = s.tb) : t.tickStamp = s.tickStamp := by
  rw [State.tickStamp, State.tickStamp, h]

theorem foldl_takeAtStep_eq (v : Time) (due : List Active) {s : State} {st : Stamp} (h : s.tickStamp = st) :
    due.foldl (fun t a => t.takeAtStep v a.entry) s = due.foldl (State.takeReached v st) s ∧
      ScheduleOnly s (due.foldl (State.takeReached v st) s) := by
  induction due generalizing s with
  | nil => exact ⟨rfl, .refl s⟩
  | cons a rest ih =>
    have honly := State.takeAtStep_only v s a.entry
    obtain ⟨heq, hrest⟩ := ih ((State.tickStamp_of_tb honly.tb).trans h)
    rw [List.foldl_cons, List.foldl_cons, heq, ← State.takeReached_eq h]
    exact ⟨rfl, honly.trans hrest⟩

/-- A claim of another kind put among the waiting ones leaves those of a kind as they stand. -/
theorem insertClaim_filter {p : Claim → Bool} {c : Claim} (h : p c = false) (cs : List Claim) :
    (insertClaim c cs).filter p = cs.filter p := by
  have hskip (ds : List Claim) : (c :: ds).filter p = ds.filter p :=
    List.filter_cons_of_neg (by rw [h]; decide)
  induction cs with
  | nil => exact hskip []
  | cons d ds ih =>
    rw [insertClaim]
    split
    · rw [List.filter_cons, List.filter_cons, ih]
    · exact hskip _

theorem Offers.filter {P : Claim → Prop} {p : Claim → Bool} {cs ds : List Claim} (h : Offers P cs ds)
    (hp : ∀ c, P c → p c = false) : ds.filter p = cs.filter p := by
  induction h with
  | refl => rfl
  | tail _ h ih =>
    obtain ⟨c, hc, rfl⟩ := h
    rw [insertClaim_filter (hp c hc), ih]

theorem State.takeReached_offers (v : Time) (st : Stamp) (s : State) (a : Active) :
    Offers (fun c => c.source = .schedule) s.claims (State.takeReached v st s a).claims := by
  unfold State.takeReached
  split
  · exact State.fireEntry_offers fun _ => rfl
  · split
    · exact State.fireEntry_offers fun _ => rfl
    · exact State.skipEntry_offers fun _ => rfl

/-- The entries taken offer claims of the Schedule Unit only, and keep every entry of the list. -/
theorem foldl_takeReached_keeps (v : Time) (st : Stamp) (due : List Active) {s : State} (h : s.tickStamp = st) :
    Offers (fun c => c.source = .schedule) s.claims (due.foldl (State.takeReached v st) s).claims ∧
      ∀ a ∈ s.sched.active, a ∈ (due.foldl (State.takeReached v st) s).sched.active := by
  induction due generalizing s with
  | nil => exact ⟨.nothing, fun _ ha => ha⟩
  | cons a rest ih =>
    have honly := State.takeAtStep_only v s a.entry
    have hsched := State.takeAtStep_sched v s a.entry
    rw [State.takeReached_eq h] at honly hsched
    obtain ⟨hoffers, hmem⟩ := ih ((State.tickStamp_of_tb honly.tb).trans h)
    refine ⟨(State.takeReached_offers v st s a).trans hoffers, fun b hb => hmem b ?_⟩
    rw [hsched]
    unfold Schedule.reentered
    split
    · exact hb
    · exact mem_insertActive.2 (.inr hb)

/-! ### The tick of a step -/

/-- What the blocks do at a step, the Schedule Unit's entries left to be taken. -/
def State.beforeEntries (s : State) (samples : BitVec 64) (a : Time) : State :=
  (s.tickLines samples (some a)).countSlots.countAges.runNotice

/-- The part as the entries reached at a step find it: they have left the list (R137). -/
def State.awaiting (s : State) : State :=
  s.setSched { s.sched with active := s.sched.active.filter fun a => !reached s.tb.counter a.entry.due }

theorem blockTick_stepped (s : State) (samples : BitVec 64) (a v : Time) {st : Stamp} (h : s.tickStamp = st) :
    let base := (s.beforeEntries samples a).awaiting
    let t := s.blockTick samples (some a) v
    t = (s.sched.active.filter fun a => reached s.tb.counter a.entry.due).foldl (State.takeReached v st) base ∧
      ScheduleOnly base t := by
  intro base t
  obtain ⟨heq, honly⟩ := foldl_takeAtStep_eq v
    (s.sched.active.filter fun a => reached s.tb.counter a.entry.due) (s := base) (st := st) h
  have ht : t = (s.sched.active.filter fun a => reached s.tb.counter a.entry.due).foldl
    (fun t a => t.takeAtStep v a.entry) base := rfl
  exact ⟨ht.trans heq, (ht.trans heq).symm ▸ honly⟩

theorem filter_stepClaims (es : List SyncEvent) (freezes : Bool) (st : Stamp) :
    ((syncClaims es st ++ holdoverClaims freezes st).filter fun c => c.source == .timebase) = syncClaims es st := by
  have hsync : (syncClaims es st).filter (fun c => c.source == .timebase) = syncClaims es st := by
    refine List.filter_eq_self.2 fun c hc => ?_
    obtain ⟨_, -, rfl⟩ := List.mem_map.1 hc
    rfl
  have hfreeze : (holdoverClaims freezes st).filter (fun c => c.source == .timebase) = [] := by
    cases freezes <;> rfl
  rw [List.filter_append, hsync, hfreeze, List.append_nil]

theorem raises_lost_step (lost locked : Bool) (e : Int) :
    (lostEvents lost ++ ⟨.step, e⟩ :: lockedEvents locked e).any SyncEvent.raises = lost := by
  cases lost <;> cases locked <;> rfl

/-- What a tick with a step makes of a part with no claim waiting. -/
theorem makeTick_stepped {u : State} (hr : u.tb.state ≠ .stopped) (hc : u.claims = []) (samples : BitVec 64)
    {sync first notice : Bool} {tb : Timebase} {es : List SyncEvent} {a v : Time} {st : Stamp}
    (hx : u.tb.comingTick sync first = ⟨⟨tb, es, notice⟩, some a, v⟩) (hst : (u.setTb tb).tickStamp = st) :
    let freezes := notice && !u.frozen
    let t := u.makeTick samples sync first
    let base : State := { t with
      outputs := u.outputs
      sched := { u.sched with active := u.sched.active.filter fun a => !reached tb.counter a.entry.due }
      claims := syncClaims es st ++ holdoverClaims freezes st
      errFlags := u.errFlags ||| (if es.any SyncEvent.raises then 0x08 else 0) ||| (if freezes then 0x40 else 0) }
    t.tb = tb ∧ t.causes = (if notice then { u.causes with holdover := true } else u.causes) ∧
    (t.claims.filter fun c => c.source == .timebase) = syncClaims es st ∧
    (∀ g, t.queues.get g = (u.queues.get g).noticed) ∧
    (∀ a ∈ u.sched.active, reached tb.counter a.entry.due = false → a ∈ t.sched.active) ∧
    t = (u.sched.active.filter fun a => reached tb.counter a.entry.due).foldl (State.takeReached v st) base := by
  have hw := timebaseTick_eq hr hc hx
  have ht : u.makeTick samples sync first = (u.timebaseTick sync first).blockTick samples (some a) v := by
    rw [makeTick_eq, slewAdjust_tick hr, hx]
  simp only [hst] at hw
  generalize u.timebaseTick sync first = w at hw ht
  have hwst : w.tickStamp = st := by rw [hw]; exact hst
  obtain ⟨hfold, honly⟩ := blockTick_stepped w samples a v hwst
  obtain ⟨htb, hcauses, hqueues⟩ := honly.rest
  have hrestore := honly.restore
  intro freezes t base
  rw [← ht] at hfold htb hcauses hqueues hrestore
  have hbase : base = (w.beforeEntries samples a).awaiting := by
    rw [← hrestore]
    subst hw
    rfl
  have htb' : t.tb = tb := by
    refine htb.trans ?_
    subst hw
    rfl
  have hfold' : t = (u.sched.active.filter fun a => reached tb.counter a.entry.due).foldl
      (State.takeReached v st) base := by
    rw [hbase]
    refine hfold.trans ?_
    subst hw
    rfl
  obtain ⟨hoffers, hmem⟩ := foldl_takeReached_keeps v st
    (u.sched.active.filter fun a => reached tb.counter a.entry.due) (s := base)
    ((State.tickStamp_of_tb htb').trans hst)
  rw [← hfold'] at hoffers hmem
  refine ⟨htb', ?_, ?_, fun g => ?_, fun a ha hn => ?_, hfold'⟩
  · refine hcauses.trans ?_
    subst hw
    rfl
  · exact (hoffers.filter fun c hc => by rw [hc]; rfl).trans (filter_stepClaims es freezes st)
  · rw [hqueues]
    refine (State.runNotice_get _ g).trans ?_
    subst hw
    rfl
  · exact hmem a (List.mem_filter.2 ⟨ha, by rw [hn]; rfl⟩)

/-- Settles O17. -/
theorem steppedPulseStepsTheTime : Obligations.SteppedPulseStepsTheTime := by
  intro samples first s hs hr hlevel henable hd hstep u v e now st lost locked freezes offered take he
  have hsees : s.tb.sees true = true := (s.tb.sees_iff true).2 ⟨hlevel, rfl, henable⟩
  have htb : u.tb = s.tb := by rw [completeTick_tb, State.missExpiry_eq s hd]
  have hcauses : u.causes = s.causes := by rw [completeTick_causes, State.missExpiry_eq s hd]
  have hfrozen : u.frozen = s.frozen := by rw [State.frozen, hcauses, State.frozen]
  have hclaims : u.claims = [] := completeTick_claims s
  have htick := Timebase.comingTick_stepped hs.period_pos hd hsees first hstep he
  rw [← htb] at hr
  refine ⟨u.makeTick samples true first, exec_tick_running (htb ▸ hr) samples true first, ?_⟩
  generalize u = u at *
  have h := makeTick_stepped (st := st) hr hclaims samples
    ((congrArg (Timebase.comingTick · true first) htb).trans htick) rfl
  rw [raises_lost_step, hfrozen, hcauses] at h
  exact h

end Sys2Proof.Machine
end

section
/-!
PROOFS. Commands one after another: the commands that complete a tick, and the ticks of a slew. Settles O21.
-/
namespace Sys2Proof.Machine
-- Declarations in order: a worker that waits for the kernel holds 1 GiB of the check's memory.
set_option Elab.async false

/-! ### Commands one after another -/

theorem State.runCommands_cons {c : Instr} {s t : State} (h : exec c s = .next t) (cs : List Instr) :
    s.runCommands (c :: cs) = t.runCommands cs := by
  rw [State.runCommands, h]

theorem State.runCommands_append (cs ds : List Instr) (s : State) :
    s.runCommands (cs ++ ds) = (s.runCommands cs).runCommands ds := by
  induction cs generalizing s with
  | nil => rfl
  | cons c cs ih =>
    obtain ⟨t, ht, -⟩ := exec_acts c s
    rw [List.cons_append, State.runCommands_cons ht, State.runCommands_cons ht, ih]

/-- Commands for every number, one after another. -/
theorem State.runCommands_forEach {n : Nat} {c : Fin n → Instr} {f : Fin n → State → State}
    (h : ∀ i s, exec (c i) s = .next (f i s)) (s : State) :
    s.runCommands ((List.finRange n).map c) = forEach f s := by
  unfold forEach
  generalize List.finRange n = is
  induction is generalizing s with
  | nil => rfl
  | cons i is ih => rw [List.map_cons, State.runCommands_cons (h i s), ih]; rfl

theorem State.runCommands_fireHeads (n : Nat) (s : State) :
    s.runCommands (List.replicate n .firing) = State.fireHeads n s := by
  induction n generalizing s with
  | zero => rfl
  | succ n ih => rw [List.replicate_succ, State.runCommands_cons (t := s.fireHead) rfl, ih]; rfl

theorem State.runCommands_takeClaims (n : Nat) (s : State) :
    s.runCommands (List.replicate n .claim) = State.takeClaims n s := by
  induction n generalizing s with
  | zero => rfl
  | succ n ih => rw [List.replicate_succ, State.runCommands_cons (t := s.takeClaim) rfl, ih]; rfl

theorem State.runCommands_capture (s : State) : s.runCommands captureCommands = s.finishCapture := by
  unfold captureCommands
  rw [State.runCommands_append, State.runCommands_append, State.runCommands_append,
    State.runCommands_forEach (c := .qualification) (f := fun n t => t.qualify n) (fun _ _ => rfl),
    State.runCommands_forEach (c := .release) (f := fun n t => t.releaseIfDue n) (fun _ _ => rfl),
    State.runCommands_forEach (c := .delayRunsOut) (f := fun i t => t.delayOut i) (fun _ _ => rfl),
    State.runCommands_forEach (c := .widthRunsOut) (f := fun i t => t.widthOut i) (fun _ _ => rfl)]
  rfl

/-- A tick is finished by its commands (assumption log 2). -/
theorem State.runCommands_finish (s : State) :
    s.runCommands (finishCommands s.sched.active.length) = s.finishTick := by
  have hlength : s.sched.active.length = s.missExpiry.finishCapture.sched.active.length := by
    rw [State.finishCapture_sched, State.missExpiry_sched]
  unfold finishCommands
  unfold State.finishTick
  rw [State.runCommands_cons (t := s.missExpiry) rfl, State.runCommands_append, State.runCommands_append,
    State.runCommands_capture, State.runCommands_fireHeads, hlength]
  generalize s.missExpiry.finishCapture = u
  rw [State.runCommands_cons (t := (State.fireHeads u.sched.active.length u).commitReached) rfl,
    State.runCommands_forEach (c := .ageTimerRunsOut) (f := fun g t => t.ageRunsOut g) (fun _ _ => rfl)]

/-! ### A slew (R13) -/

theorem State.quietTicks_succ {samples : BitVec 64} {s t : State}
    (h : exec (.tick samples false false) s = .next t) (n : Nat) :
    s.quietTicks samples (n + 1) = t.quietTicks samples n := by
  rw [State.quietTicks, List.replicate_succ, State.runCommands_cons h]
  rfl

theorem State.quietTicks_add (samples : BitVec 64) (m n : Nat) (s : State) :
    s.quietTicks samples (m + n) = (s.quietTicks samples m).quietTicks samples n := by
  rw [State.quietTicks, List.replicate_add, State.runCommands_append]
  rfl

/-- A running Timebase at a time value with adjustments pending and none chosen for the coming tick. -/
structure Slewing (t : Timebase) (c : Time) (sl : Option Slew) : Prop where
  running : t.state ≠ .stopped
  counter : t.counter = c
  slew : t.slew = sl
  advance : t.advance = .normal

theorem State.slewAdjust_state (s : State) : s.slewAdjust.tb.state = s.tb.state := by
  by_cases h : s.tb.state = .stopped
  · rw [State.slewAdjust, State.whenTickDue_stopped h]
  · obtain ⟨sl, e, -⟩ := s.tb.adjusted
    rw [State.slewAdjust_eq s h, e]

/-- A tick with SYNC low (R2, R13). -/
theorem exec_tick_quiet {s : State} (h : s.tb.state ≠ .stopped) (samples : BitVec 64) :
    ∃ t, exec (.tick samples false false) s = .next t ∧
      Slewing t.tb (s.tb.counter + s.tb.comingAdvance.amount) s.tb.comingSlew := by
  obtain ⟨t, ht, hc, -, -, hs, ha, -⟩ := (tickAdvancesTheTimeValue samples false false s).2.2 h (by simp)
  refine ⟨t, ht, ?_, hc, hs, ha⟩
  rw [exec_tick_running h] at ht
  rw [← Host.Outcome.next.inj ht, makeTick_tb]
  refine Timebase.tick_state_ne_stopped ?_ _ _
  rw [State.slewAdjust_state]
  exact completeTick_state_ne_stopped h

/-- The adjustment's part of a slew that is ahead or behind. -/
def Slew.sign (x : Slew) : Int := if x.ahead then 1 else -1

/-- What one adjustment leaves pending (R13). -/
def Slew.after (x : Slew) : Option Slew :=
  if x.left ≤ 1 then none else some { x with left := x.left - 1, next := x.spacing }

theorem Slewing.coming {t : Timebase} {c : Time} {x : Slew} (h : Slewing t c (some x)) :
    (1 < x.next → t.comingAdvance = .normal ∧ t.comingSlew = some { x with next := x.next - 1 }) ∧
    (x.next ≤ 1 → t.counter + t.comingAdvance.amount = c + BitVec.ofInt 48 (1 - x.sign) ∧ t.comingSlew = x.after) := by
  obtain ⟨-, hc, hs, ha⟩ := h
  unfold Timebase.comingAdvance Timebase.comingSlew Slew.after Slew.sign
  simp only [ha, hs, hc, if_true]
  refine ⟨fun hx => ?_, fun hx => ?_⟩
  · simp [hx]
  · simp only [Nat.not_lt.2 hx, if_false]
    refine ⟨?_, trivial⟩
    cases x.ahead <;> rfl

theorem ofInt_add_assoc (c : Time) (i j : Int) : c + BitVec.ofInt 48 i + BitVec.ofInt 48 j = c + BitVec.ofInt 48 (i + j) := by
  rw [BitVec.ofInt_add, BitVec.add_assoc]

/-- The ticks up to an adjustment and the adjusted tick. -/
theorem Slewing.spacing {s : State} {c : Time} {x : Slew} (samples : BitVec 64) (h : Slewing s.tb c (some x))
    (k : Nat) (hk : x.next = k + 1) :
    Slewing (s.quietTicks samples (k + 1)).tb (c + BitVec.ofInt 48 ((k + 1 : Nat) - x.sign)) x.after := by
  obtain ⟨t, ht, hslew⟩ := exec_tick_quiet h.running samples
  obtain ⟨hbefore, hfalls⟩ := h.coming
  rw [State.quietTicks_succ ht]
  induction k generalizing s c x t with
  | zero =>
    obtain ⟨hc, hs⟩ := hfalls (by omega)
    rw [hc, hs] at hslew
    exact hslew
  | succ k ih =>
    obtain ⟨hadv, hs⟩ := hbefore (by omega)
    rw [h.counter, hadv, hs] at hslew
    obtain ⟨u, hu, huslew⟩ := exec_tick_quiet hslew.running samples
    have hrest := ih hslew (by rw [hk]; rfl) u hu huslew hslew.coming.1 hslew.coming.2
    rw [State.quietTicks_succ hu]
    have hcount : c + Advance.normal.amount + BitVec.ofInt 48 ((k + 1 : Nat) - x.sign) =
        c + BitVec.ofInt 48 ((k + 1 + 1 : Nat) - x.sign) := by
      rw [show Advance.normal.amount = BitVec.ofInt 48 1 from rfl, ofInt_add_assoc]
      congr 2
      push_cast
      ring
    rw [← hcount]
    exact hrest

/-- All the adjustments of a slew, a spacing apart. -/
theorem Slewing.removed {s : State} {c : Time} (samples : BitVec 64) (ahead : Bool) (sp left : Nat) (hsp : sp ≠ 0)
    (h : Slewing s.tb c (some ⟨ahead, left + 1, sp, sp⟩)) :
    Slewing (s.quietTicks samples ((left + 1) * sp)).tb
      (c + BitVec.ofInt 48 (((left + 1) * sp : Nat) - (left + 1 : Nat) * Slew.sign ⟨ahead, 1, sp, sp⟩)) none := by
  obtain ⟨k, rfl⟩ := Nat.exists_eq_succ_of_ne_zero hsp
  have hfirst := h.spacing samples k rfl
  induction left generalizing s c with
  | zero => simpa [Slew.sign, Slew.after] using hfirst
  | succ left ih =>
    have hafter : Slew.after ⟨ahead, left + 1 + 1, k + 1, k + 1⟩ = some ⟨ahead, left + 1, k + 1, k + 1⟩ := by
      simp [Slew.after]
    rw [hafter] at hfirst
    have hrest := ih hfirst (hfirst.spacing samples k rfl)
    have hticks : (left + 1 + 1) * (k + 1) = (k + 1) + (left + 1) * (k + 1) := by ring
    rw [hticks, State.quietTicks_add]
    rw [ofInt_add_assoc] at hrest
    convert hrest using 3
    simp only [Slew.sign]
    push_cast
    ring

/-- Settles O21. -/
theorem slewRemovesThePhaseError : Obligations.SlewRemovesThePhaseError := by
  intro samples s e hr ha he hp hs n t
  obtain ⟨left, hleft⟩ := Nat.exists_eq_succ_of_ne_zero (Int.natAbs_ne_zero.2 he)
  have hslew : Slewing s.tb s.tb.counter (some ⟨decide (0 < e), left + 1,
      s.tb.period.toNat / (e.natAbs + 1), s.tb.period.toNat / (e.natAbs + 1)⟩) :=
    ⟨hr, rfl, by rw [hs, slewFor, if_neg he, hleft], ha⟩
  have hle : (e.natAbs + 1) * (s.tb.period.toNat / (e.natAbs + 1)) ≤ s.tb.period.toNat := Nat.mul_div_le _ _
  have hpos : 1 ≤ s.tb.period.toNat / (e.natAbs + 1) := (Nat.one_le_div_iff (by omega)).2 (by omega)
  have hn : n = (left + 1) * (s.tb.period.toNat / (e.natAbs + 1)) := by rw [← Nat.succ_eq_add_one, ← hleft]
  obtain ⟨-, hcounter, hnone, hadvance⟩ := hslew.removed samples _ _ left (by omega)
  rw [← hn] at hcounter hnone hadvance
  refine ⟨?_, hnone, hadvance, hcounter.trans ?_⟩
  · rw [Nat.succ_mul] at hle
    exact Nat.lt_of_lt_of_le (Nat.lt_add_of_pos_right hpos) hle
  · have hsign : ((left + 1 : Nat) : Int) * Slew.sign ⟨decide (0 < e), 1, s.tb.period.toNat / (e.natAbs + 1),
        s.tb.period.toNat / (e.natAbs + 1)⟩ = e := by
      unfold Slew.sign
      by_cases hpos : 0 < e
      · simp only [hpos, decide_true, if_true]
        omega
      · simp only [hpos, decide_false, Bool.false_eq_true, if_false]
        omega
    have hsub : BitVec.ofInt 48 ((n : Int) - e) = BitVec.ofNat 48 n - BitVec.ofInt 48 e :=
      eq_sub_of_add_eq (by rw [← BitVec.ofInt_add, sub_add_cancel, BitVec.ofInt_natCast])
    rw [hsign, hsub, add_sub_assoc]

end Sys2Proof.Machine
end

section
/-!
PROOFS. The commands of the Timebase, and its view in TBSTAT, EPOCH and TBCTL. Settles O22.
-/
namespace Sys2Proof.Machine
-- Declarations in order: a worker that waits for the kernel holds 1 GiB of the check's memory.
set_option Elab.async false

/-! ### The switches (R8) -/

theorem Timebase.setSwitches_keeps {t : Timebase} {a b c : Bool}
    (h : ¬(t.syncEnable = true ∧ a = false ∧ (t.state = .locked ∨ t.state = .holdover))) :
    t.setSwitches a b c = { t with syncEnable := a, stepAllow := b, freezeOnHoldover := c } := by
  unfold Timebase.setSwitches
  refine if_neg ?_
  simpa [and_assoc] using h

theorem Timebase.setSwitches_frees {t : Timebase} {b c : Bool} (h : t.syncEnable = true)
    (hs : t.state = .locked ∨ t.state = .holdover) :
    t.setSwitches false b c = { t with
      syncEnable := false, stepAllow := b, freezeOnHoldover := c
      state := .free, slew := none, advance := .normal, missTimer := none } := by
  unfold Timebase.setSwitches
  refine if_pos ?_
  simpa [h] using hs

theorem Timebase.setSwitches_of_state {t : Timebase} (h : t.state = .stopped ∨ t.state = .free) (a b c : Bool) :
    t.setSwitches a b c = { t with syncEnable := a, stepAllow := b, freezeOnHoldover := c } := by
  refine Timebase.setSwitches_keeps ?_
  rintro ⟨-, -, h' | h'⟩ <;> simp [h'] at h

theorem stopOp_config {s : State} (h : s.mode = .config) (a b c : Bool) :
    stopOp a b c s = .ok (s.finishTick.setTb (s.finishTick.tb.stopped.setSwitches a b c)) := by
  unfold stopOp
  rw [if_neg (by rw [h]; decide)]
  generalize s.finishTick = t
  rfl

/-! ### TBSTAT and TBCTL (R191) -/

theorem toNat_tbstat (t : Timebase) :
    t.statusWord.toNat =
      (match t.state with | .stopped => 0 | .free => 1 | .locked => 2 | .holdover => 3) +
      (if t.slew ≠ none ∨ t.advance ≠ .normal then 4 else 0) + 16 * t.missCount.toNat +
      256 * t.badCount.toNat + (if t.missReached then 4096 else 0) + (if t.badReached then 8192 else 0) := by
  have hm := t.missCount.isLt
  have hb := t.badCount.isLt
  have hpending : t.slewPending = true ↔ t.slew ≠ none ∨ t.advance ≠ .normal := by
    simp [Timebase.slewPending, Option.isSome_iff_ne_none]
  generalize hcode : (match t.state with | .stopped => 0 | .free => 1 | .locked => 2 | .holdover => 3 : Word) = code
  have hstate : code.toNat = (match t.state with | .stopped => 0 | .free => 1 | .locked => 2 | .holdover => 3) ∧
      code.toNat < 4 := by
    rw [← hcode]
    cases t.state <;> decide
  have hmiss : (t.missCount.zeroExtend 16 : Word).toNat = t.missCount.toNat := toNat_widen (by decide) _
  have hbad : (t.badCount.zeroExtend 16 : Word).toNat = t.badCount.toNat := toNat_widen (by decide) _
  have h2 : (code ||| bitAt t.slewPending 2).toNat = code.toNat + if t.slewPending then 4 else 0 :=
    toNat_or_bitAt (by decide) hstate.2
  have h2' : (if t.slewPending then 4 else 0) ≤ 4 := by split <;> decide
  have h4 := toNat_or_shiftLeft (x := code ||| bitAt t.slewPending 2) (y := t.missCount.zeroExtend 16) (k := 4)
    (by omega) (by omega)
  have h8 := toNat_or_shiftLeft (x := code ||| bitAt t.slewPending 2 ||| t.missCount.zeroExtend 16 <<< 4)
    (y := t.badCount.zeroExtend 16) (k := 8) (by omega) (by omega)
  have h12 := toNat_or_bitAt (x := code ||| bitAt t.slewPending 2 ||| t.missCount.zeroExtend 16 <<< 4 |||
    t.badCount.zeroExtend 16 <<< 8) (b := t.missReached) (k := 12) (by decide) (by omega)
  have h12' : (if t.missReached then 2 ^ 12 else 0) ≤ 4096 := by split <;> decide
  have h13 := toNat_or_bitAt (x := code ||| bitAt t.slewPending 2 ||| t.missCount.zeroExtend 16 <<< 4 |||
    t.badCount.zeroExtend 16 <<< 8 ||| bitAt t.missReached 12) (b := t.badReached) (k := 13) (by decide) (by omega)
  have hword : t.statusWord = code ||| bitAt t.slewPending 2 ||| t.missCount.zeroExtend 16 <<< 4 |||
      t.badCount.zeroExtend 16 <<< 8 ||| bitAt t.missReached 12 ||| bitAt t.badReached 13 := by
    rw [← hcode]
    rfl
  rw [hword, h13, h12, h8, h4, h2, hmiss, hbad, hstate.1, if_congr hpending rfl rfl]
  rfl

/-- Settles O22. -/
theorem timebaseCommands : Obligations.TimebaseCommands := by
  intro a b c s hr u f
  have hf : f = s.settled.finishTick := by
    have := s.settled.runCommands_finish
    rwa [State.settled_sched] at this
  have ok {op : State → Except RefCode State} {t : State} (h : op s.settled = .ok t) :
      hostWrite 0x30 op s = .next t := hostWrite_ok hr h
  have no {op : State → Except RefCode State} {e : RefCode} (h : op s.settled = .error e) :
      hostWrite 0x30 op s = .next (s.settled.refuse e 0x30) := hostWrite_error hr h
  have hu : u.tb.syncEnable = s.tb.syncEnable := by
    obtain ⟨st, mc, mr, mt, ts, h⟩ := s.settled.missExpiry_tb_frame
    rw [h, State.settled_tb]
  have running (h : s.tb.state ≠ .stopped) : f.tb.state ≠ .stopped := by
    rw [hf, finishTick_tb]
    exact missExpiry_state_ne_stopped (by rwa [State.settled_tb])
  refine ⟨fun hs => ok (op := startOp a b c) ?_, fun hs => no (op := startOp a b c) ?_,
    fun hs ha hc => ⟨_, ok (op := presetOp a b c) ?_, fun g => State.runNotice_get s.settled g⟩,
    fun h => no (op := presetOp a b c) ?_, fun hm => no (op := stopOp a b c) ?_,
    fun hm hs => ok (op := stopOp a b c) ?_, fun hm hs => ok (op := stopOp a b c) ?_,
    fun he ha hs => ok (op := switchesOp a b c) ?_, fun h => ok (op := switchesOp a b c) ?_, rfl,
    fun hd => State.missExpiry_eq _ (by rwa [State.settled_tb]), ?_, ?_, ?_⟩
  · rw [startOp, if_pos (by rwa [State.settled_tb]), State.withSwitches,
      Timebase.setSwitches_of_state (.inr rfl), State.settled_tb]
    rfl
  · exact if_neg (by rwa [State.settled_tb])
  · rw [presetOp, if_pos ⟨by rwa [State.settled_tb], by rwa [State.settled_sched], by rwa [State.settled_sched]⟩,
      State.withSwitches, Timebase.setSwitches_of_state (.inl (by rwa [← State.settled_tb] at hs)), State.settled_tb]
    rfl
  · exact if_neg (by rwa [State.settled_tb, State.settled_sched])
  · exact if_pos (by rwa [State.settled_mode])
  · have hst : f.tb.stopped = { f.tb with
        state := .stopped, slew := none, advance := .normal, missTimer := none } := if_neg (running hs)
    rw [stopOp_config (by rwa [State.settled_mode]), ← hf, hst, Timebase.setSwitches_of_state (.inl rfl)]
    rfl
  · have hs' : s.settled.tb.state = .stopped := by rwa [State.settled_tb]
    rw [stopOp_config (by rwa [State.settled_mode]), finishTick_stopped hs',
      show s.settled.tb.stopped = s.settled.tb from if_pos hs', Timebase.setSwitches_of_state (.inl hs'),
      State.settled_tb]
    rfl
  · change Except.ok (u.setTb (u.tb.setSwitches a b c)) = _
    rw [ha, Timebase.setSwitches_frees (by rw [← he, ← hu]) hs]
    rfl
  · change Except.ok (u.setTb (u.tb.setSwitches a b c)) = _
    rw [Timebase.setSwitches_keeps (by rwa [← hu] at h)]
    rfl
  · rw [s.readAddr_eq 0x31 .tbstat rfl hr]
    simp only [State.readRegister, State.settled_tb]
    exact toNat_tbstat _
  · rw [s.readAddr_eq 0x35 .epoch rfl hr]
    simp only [State.readRegister, State.settled_tb]
    exact toNat_widen (by decide) _
  · rw [s.readAddr_eq 0x30 .tbctl rfl hr]
    simp only [State.readRegister, State.settled_tb]
    cases s.tb.syncEnable <;> cases s.tb.stepAllow <;> cases s.tb.freezeOnHoldover <;> rfl

end Sys2Proof.Machine
end

section
/-!
PROOFS. What TICK finds of the tick before it, and what it keeps of it. Settles O25.
-/
namespace Sys2Proof.Machine
-- Declarations in order: a worker that waits for the kernel holds 1 GiB of the check's memory.
set_option Elab.async false

/-! ### The capture leaves no release, delay or width to take (R28, R41, R111, R115) -/

theorem State.releaseLine_lines (s : State) (n : LineNo) :
    (s.releaseLine n).lines = s.lines.set n (s.lines.get n).released := by
  unfold State.releaseLine
  simp only
  split <;> rfl

/-- The quiet timer of a SUPPRESSED line has run out. -/
def Line.quietOver (l : Line) : Bool := l.state == .suppressed && l.quiet == some 0

theorem State.releaseDue_eq (s : State) (n : LineNo) :
    s.releaseDue n = ((s.lines.get n).quietOver && !s.someQualifies) := rfl

theorem State.someQualifies_eq_false {s : State} (h : ∀ m, (s.lines.get m).qualifies = false) :
    s.someQualifies = false := by
  rw [Bool.eq_false_iff, ne_eq, State.someQualifies, anyIdx_iff]
  rintro ⟨m, hm⟩
  rw [h m] at hm
  cases hm

/-- A release leaves its line with no quiet timer that has run out, and every other line as it was. -/
theorem releaseIfDue_quietOver {s : State} (h : s.tb.state ≠ .stopped) (hq : ∀ m, (s.lines.get m).qualifies = false)
    (n m : LineNo) :
    ((s.releaseIfDue n).lines.get m).quietOver = if m = n then false else (s.lines.get m).quietOver := by
  have hdue : s.releaseDue n = (s.lines.get n).quietOver := by
    rw [State.releaseDue_eq, State.someQualifies_eq_false hq, Bool.not_false, Bool.and_true]
  unfold State.releaseIfDue
  rw [State.whenTickDue_running h, hdue]
  cases hd : (s.lines.get n).quietOver with
  | true =>
    change ((s.releaseLine n).lines.get m).quietOver = _
    rw [State.releaseLine_lines, Bank.get_set]
    split
    · rfl
    · rfl
  | false =>
    change (s.lines.get m).quietOver = _
    split
    · next hm => rw [hm, hd]
    · rfl

theorem delayOut_due {s : State} (h : s.tb.state ≠ .stopped) (i j : SlotNo) :
    (s.delayOut i).delayDue j = if j = i then false else s.delayDue j := by
  unfold State.delayOut
  rw [State.whenTickDue_running h]
  cases hd : s.delayDue i with
  | true =>
    change (s.assertSlot i).delayDue j = _
    unfold State.delayDue
    rw [State.assertSlot_slots, Bank.get_set]
    split
    · unfold Slot.assert
      split <;> rfl
    · rfl
  | false =>
    change s.delayDue j = _
    split
    · next hj => rw [hj, hd]
    · rfl

theorem Slot.complete_state (x : Slot) : x.complete.state = .disarmed ∨ x.complete.state = .armed := by
  unfold Slot.complete
  simp only
  split
  · exact .inl rfl
  · exact .inr rfl

theorem widthOut_due {s : State} (h : s.tb.state ≠ .stopped) (i j : SlotNo) :
    (s.widthOut i).delayDue j = (if j = i ∧ s.widthDue i = true then false else s.delayDue j) ∧
    (s.widthOut i).widthDue j = if j = i then false else s.widthDue j := by
  unfold State.widthOut
  rw [State.whenTickDue_running h]
  cases hd : s.widthDue i with
  | true =>
    change (s.completePulse i .ended true s.tickStamp).delayDue j = _ ∧
      (s.completePulse i .ended true s.tickStamp).widthDue j = _
    unfold State.delayDue State.widthDue
    rw [State.completePulse_slots, Bank.get_set]
    by_cases hj : j = i
    · simp only [hj, and_self, if_true]
      rcases (s.slots.get i).complete_state with hc | hc <;> rw [hc] <;> exact ⟨rfl, rfl⟩
    · simp only [hj, false_and, if_false, and_self]
  | false =>
    change s.delayDue j = _ ∧ s.widthDue j = _
    refine ⟨by simp, ?_⟩
    split
    · next hj => rw [hj, hd]
    · rfl

theorem State.delayDue_congr {s t : State} (h : t.slots = s.slots) (i : SlotNo) : t.delayDue i = s.delayDue i := by
  unfold State.delayDue
  rw [h]

theorem State.widthDue_congr {s t : State} (h : t.slots = s.slots) (i : SlotNo) : t.widthDue i = s.widthDue i := by
  unfold State.widthDue
  rw [h]

theorem State.releaseDue_congr {s t : State} (h : t.lines = s.lines) (n : LineNo) :
    t.releaseDue n = s.releaseDue n := by
  unfold State.releaseDue State.someQualifies
  rw [h]

/-- After the capture of a tick no delay and no width is left to run out. -/
theorem finishCapture_slotDue {s : State} (h : s.tb.state ≠ .stopped) (i : SlotNo) :
    s.finishCapture.delayDue i = false ∧ s.finishCapture.widthDue i = false := by
  have running {n : Nat} {f : Fin n → State → State} (hf : ∀ i t, (f i t).tb = t.tb) {t : State}
      (ht : t.tb.state ≠ .stopped) : (forEach f t).tb.state ≠ .stopped := by
    rwa [forEach_same (·.tb) hf]
  have hqr : (forEach (fun n t => t.releaseIfDue n) (forEach (fun n t => t.qualify n) s)).tb.state ≠ .stopped :=
    running (fun n t => (inputOnly_releaseIfDue t n).tb) (running (fun n t => (inputOnly_qualify t n).tb) h)
  unfold State.finishCapture
  simp only
  generalize forEach (fun n t => t.releaseIfDue n) (forEach (fun n t => t.qualify n) s) = r at hqr ⊢
  have hdtb (i : SlotNo) (t : State) : (t.delayOut i).tb = t.tb := (reflexOnly_delayOut t i).input.tb
  have hwtb (i : SlotNo) (t : State) : (t.widthOut i).tb = t.tb := (reflexOnly_widthOut t i).input.tb
  have hdelay : ∀ i, (forEach (fun i t => t.delayOut i) r).delayDue i = false :=
    forEach_each (I := fun t => t.tb.state ≠ .stopped) (Q := fun i t => t.delayDue i = false)
      (fun i t ht => by rwa [hdtb])
      (fun i t ht => by rw [delayOut_due ht, if_pos rfl])
      (fun i j t ht hj => by rw [delayOut_due ht, hj, ite_self]) hqr
  have hd := running hdtb hqr
  generalize forEach (fun i t => t.delayOut i) r = d at hdelay hd ⊢
  have hall : ∀ i, (forEach (fun i t => t.widthOut i) d).widthDue i = false :=
    forEach_each (I := fun t => t.tb.state ≠ .stopped) (Q := fun i t => t.widthDue i = false)
      (fun i t ht => by rwa [hwtb])
      (fun i t ht => by rw [(widthOut_due ht i i).2, if_pos rfl])
      (fun i j t ht hj => by rw [(widthOut_due ht i j).2, hj, ite_self]) hd
  have hkeep : (forEach (fun i t => t.widthOut i) d).tb.state ≠ .stopped ∧
      ∀ i, (forEach (fun i t => t.widthOut i) d).delayDue i = false :=
    forEach_keeps (P := fun t => t.tb.state ≠ .stopped ∧ ∀ i, t.delayDue i = false)
      (fun i t ht => ⟨by rw [hwtb]; exact ht.1, fun j => by rw [(widthOut_due ht.1 i j).1, ht.2, ite_self]⟩) ⟨hd, hdelay⟩
  exact ⟨hkeep.2 i, hall i⟩

/-- After the capture of a tick no release is left to take. -/
theorem finishCapture_releaseDue {s : State} (h : s.tb.state ≠ .stopped) (n : LineNo) :
    s.finishCapture.releaseDue n = false := by
  have hall : ∀ m, ((forEach (fun n t => t.qualify n) s).lines.get m).qualifies = false :=
    forEach_each (I := fun t => t.tb.state ≠ .stopped) (Q := fun m t => (t.lines.get m).qualifies = false)
      (fun n t ht => by rw [(inputOnly_qualify t n).tb]; exact ht)
      (fun n t ht => by rw [qualify_qualifies ht]; exact if_pos rfl)
      (fun n m t ht hm => by rw [qualify_qualifies ht, hm, ite_self]) h
  have hr : (forEach (fun n t => t.qualify n) s).tb.state ≠ .stopped := by
    rwa [forEach_same (·.tb) (fun n t => (inputOnly_qualify t n).tb)]
  have hd (t : State) : (forEach (fun i t => t.delayOut i) t).lines = t.lines :=
    forEach_same (·.lines) (fun i t => (reflexOnly_delayOut t i).lines) t
  have hw (t : State) : (forEach (fun i t => t.widthOut i) t).lines = t.lines :=
    forEach_same (·.lines) (fun i t => (reflexOnly_widthOut t i).lines) t
  unfold State.finishCapture
  simp only
  generalize forEach (fun n t => t.qualify n) s = q at hall hr ⊢
  have hover : ∀ m, ((forEach (fun n t => t.releaseIfDue n) q).lines.get m).quietOver = false :=
    forEach_each (I := fun t => t.tb.state ≠ .stopped ∧ ∀ m, (t.lines.get m).qualifies = false)
      (Q := fun m t => (t.lines.get m).quietOver = false)
      (fun n t ht => ⟨by rw [(inputOnly_releaseIfDue t n).tb]; exact ht.1,
        fun m => by rw [releaseIfDue_qualifies, ht.2]⟩)
      (fun n t ht => by rw [releaseIfDue_quietOver ht.1 ht.2, if_pos rfl])
      (fun n m t ht hm => by rw [releaseIfDue_quietOver ht.1 ht.2, hm, ite_self]) ⟨hr, hall⟩
  rw [State.releaseDue_congr ((hw _).trans (hd _)), State.releaseDue_eq, hover, Bool.false_and]

/-! ### The completed tick -/

theorem takeClaims_slots (n : Nat) (s : State) :
    (State.takeClaims n s).slots = s.slots ∧ (State.takeClaims n s).sched = s.sched ∧
      (State.takeClaims n s).tb = s.tb := by
  obtain ⟨_, _, _, _, e⟩ := State.takeClaims_frame n s
  rw [e]
  exact ⟨rfl, rfl, rfl⟩

theorem forEach_age_frame (s : State) :
    ∃ gs, forEach (fun g t => t.ageRunsOut g) s = { s with groups := gs } := by
  refine forEach_keeps (P := fun t => ∃ gs, t = { s with groups := gs }) ?_ ⟨s.groups, rfl⟩
  rintro g t ⟨gs, rfl⟩
  obtain ⟨gs', e⟩ := State.ageRunsOut_frame { s with groups := gs } g
  exact ⟨gs', e⟩

theorem finishTick_slots (s : State) : s.finishTick.slots = s.missExpiry.finishCapture.slots := by
  unfold State.finishTick
  simp only
  generalize s.missExpiry.finishCapture = c
  obtain ⟨_, e⟩ := forEach_age_frame (State.fireHeads c.sched.active.length c).commitReached
  obtain ⟨_, _, _, _, e1⟩ := scheduleOnly_commitReached (State.fireHeads c.sched.active.length c)
  obtain ⟨_, _, _, _, e2⟩ := scheduleOnly_fireHeads c.sched.active.length c
  rw [e, e1, e2]

theorem completeTick_slots (s : State) : s.completeTick.slots = s.missExpiry.finishCapture.slots :=
  (takeClaims_slots _ _).1.trans (finishTick_slots s)

theorem State.startApplying_commit (s : State) : s.startApplying.sched.commit ≠ .armed := by
  unfold State.startApplying
  simp only
  split
  · rw [State.finishCommit_sched]
    exact nofun
  · exact nofun

theorem commitReached_commitDue {s : State} (h : s.tb.state ≠ .stopped) : s.commitReached.commitDue = false := by
  unfold State.commitReached
  rw [State.whenTickDue_running h]
  cases hd : s.commitDue with
  | true =>
    have harmed : (s.startApplying.sched.commit == .armed) = false := beq_false_of_ne s.startApplying_commit
    change s.startApplying.commitDue = false
    rw [State.commitDue, harmed, Bool.false_and]
  | false => exact hd

theorem State.commitDue_congr {s t : State} (hx : t.sched = s.sched) (ht : t.tb = s.tb) :
    t.commitDue = s.commitDue := by
  unfold State.commitDue
  rw [hx, ht]

theorem finishTick_commitDue {s : State} (h : s.tb.state ≠ .stopped) : s.finishTick.commitDue = false := by
  have hc : s.missExpiry.finishCapture.tb.state ≠ .stopped := by
    rw [State.finishCapture_tb]
    exact missExpiry_state_ne_stopped h
  unfold State.finishTick
  simp only
  generalize s.missExpiry.finishCapture = c at hc ⊢
  obtain ⟨_, e⟩ := forEach_age_frame (State.fireHeads c.sched.active.length c).commitReached
  rw [e]
  refine (State.commitDue_congr rfl rfl).trans
    (commitReached_commitDue (s := State.fireHeads c.sched.active.length c) ?_)
  rwa [(scheduleOnly_fireHeads _ c).tb]

theorem completeTick_commitDue {s : State} (h : s.tb.state ≠ .stopped) : s.completeTick.commitDue = false :=
  (State.commitDue_congr (takeClaims_slots _ _).2.1 (takeClaims_slots _ _).2.2).trans (finishTick_commitDue h)

/-! ### Age timers (R80) -/

theorem ageRunsOut_due {s : State} (h : s.tb.state ≠ .stopped) (g k : GroupNo) :
    (s.ageRunsOut g).ageDue k = if k = g then false else s.ageDue k := by
  unfold State.ageRunsOut
  rw [State.whenTickDue_running h]
  cases hd : s.ageDue g with
  | true =>
    change (s.setGroup g { s.groups.get g with ageTimer := none, ageMark := true }).ageDue k = _
    unfold State.ageDue
    rw [State.setGroup_groups, Bank.get_set]
    split <;> rfl
  | false =>
    change s.ageDue k = _
    split
    · next hk => rw [hk, hd]
    · rfl

theorem finishTick_ageDue {s : State} (h : s.tb.state ≠ .stopped) (g : GroupNo) : s.finishTick.ageDue g = false := by
  have hc : s.missExpiry.finishCapture.tb.state ≠ .stopped := by
    rw [State.finishCapture_tb]
    exact missExpiry_state_ne_stopped h
  have hr : (State.fireHeads s.missExpiry.finishCapture.sched.active.length
      s.missExpiry.finishCapture).commitReached.tb.state ≠ .stopped := by
    rwa [(scheduleOnly_commitReached _).tb, (scheduleOnly_fireHeads _ _).tb]
  unfold State.finishTick
  simp only
  refine forEach_each (I := fun t => t.tb.state ≠ .stopped) (Q := fun g t => t.ageDue g = false)
    (fun g t ht => ?_) (fun g t ht => by rw [ageRunsOut_due ht, if_pos rfl])
    (fun g k t ht hk => by rw [ageRunsOut_due ht, hk, ite_self]) hr g
  obtain ⟨_, e⟩ := t.ageRunsOut_frame g
  rwa [e]

/-- The taking of a record leaves the groups, or presents one of them. -/
theorem State.takeRecord_groups (s : State) (g : GroupNo) (r : Record) :
    (s.takeRecord g r).groups = s.groups ∨
      ∃ q, (s.takeRecord g r).groups = s.groups.set g ((s.groups.get g).shows q) := by
  unfold State.takeRecord
  split
  · unfold State.enterRecord State.admissionNotice
    simp only
    split
    · exact .inr ⟨_, rfl⟩
    · exact .inl rfl
  · split
    · exact .inl rfl
    · cases h : (s.queues.get g).records[(s.groups.get g).candidate]? with
      | none => rw [State.dropOldest_none h]; exact .inl rfl
      | some c =>
        by_cases hc : (s.queues.get g).runStart ≤ (s.groups.get g).candidate ∧ r.key.lt c.key = true
        · rw [State.dropOldest_raise h hc]; exact .inl rfl
        · rw [State.dropOldest_replace h hc]; exact .inl rfl

/-- The age timer of a record that is presented starts above 0 (R80). -/
theorem Group.shows_ageTimer (x : Group) (q : Queue) : (x.shows q).ageTimer ≠ some 0 := by
  unfold Group.shows
  simp only
  split
  · exact nofun
  · next h => simpa [← BitVec.toNat_inj] using h

theorem State.takeClaim_ageDue {s : State} (h : ∀ g, s.ageDue g = false) (k : GroupNo) :
    s.takeClaim.ageDue k = false := by
  unfold State.takeClaim
  split
  · exact h k
  · next c cs hc =>
    rcases State.takeRecord_groups { s with claims := cs } c.source.queue c.record with e | ⟨q, e⟩
    · unfold State.ageDue
      rw [e]
      exact h k
    · unfold State.ageDue
      rw [e, Bank.get_set]
      split
      · exact beq_false_of_ne (Group.shows_ageTimer _ _)
      · exact h k

theorem State.takeClaims_ageDue (n : Nat) {s : State} (h : ∀ g, s.ageDue g = false) (k : GroupNo) :
    (State.takeClaims n s).ageDue k = false := by
  induction n generalizing s with
  | zero => exact h k
  | succ n ih => exact ih (State.takeClaim_ageDue h)

theorem completeTick_ageDue {s : State} (h : s.tb.state ≠ .stopped) (g : GroupNo) :
    s.completeTick.ageDue g = false := State.takeClaims_ageDue _ (finishTick_ageDue h) g

/-! ### The miss timer (R17) -/

/-- In a Timebase in its ranges an expiry that has been taken is followed by no other at its tick. -/
theorem missExpiry_expiryDue {s : State} (h : TimebaseSafe s.tb) : s.missExpiry.tb.expiryDue = false := by
  rw [State.missExpiry_tb]
  split
  · change s.tb.expire.tb.expiryDue = false
    unfold Timebase.expire
    split
    · exact Timebase.expiryDue_of_state nofun
    · exact Timebase.expiryDue_of_missTimer rfl (by simpa [← BitVec.toNat_inj] using ((timebaseSafe_iff _).1 h).1.period_pos)
  · next hd => exact Bool.eq_false_iff.2 hd

/-- After the expiry that it would take itself the completion of a tick does the same. -/
theorem completeTick_missExpiry {s : State} (h : s.missExpiry.tb.expiryDue = false) :
    s.missExpiry.completeTick = s.completeTick := by
  unfold State.completeTick State.finishTick
  rw [State.missExpiry_eq _ h]

/-! ### What the coming tick does to the time value (R12, R14) -/

/-- The coming tick is a stepped pulse (R10, R12). -/
def Timebase.steps (t : Timebase) (sync : Bool) : Prop :=
  (t.syncLevel = some false ∧ sync = true ∧ t.syncEnable = true) ∧ t.stepAllow = true ∧
    t.slewLimit.toNat < t.comingError.natAbs

theorem Timebase.pulse_step (t : Timebase) :
    t.pulse.step = if t.stepAllow = true ∧ t.slewLimit.toNat < (phaseError t.counter t.period.toNat).natAbs then
      some (-BitVec.ofInt 48 (phaseError t.counter t.period.toNat)) else none := by
  unfold Timebase.pulse
  simp only
  split
  · next h => rw [if_neg (by omega)]
  · next h =>
    split
    · next ha => rw [if_pos ⟨ha, by omega⟩]
    · next ha => rw [if_neg (fun k => ha k.1)]

theorem Timebase.comingTick_steps {t : Timebase} {sync : Bool} (h : t.steps sync) (first : Bool) :
    (t.comingTick sync first).step = some (-BitVec.ofInt 48 t.comingError) := by
  rw [Timebase.comingTick_of_sees ((t.sees_iff sync).2 h.1)]
  have hs := (t.coming sync).expireFirst_settings first
  have hc := (t.coming sync).expireFirst_counter first
  simp only [Timebase.settings, Prod.mk.injEq] at hs
  obtain ⟨-, hperiod, -, hlimit, -, -, -, hallow, -⟩ := hs
  simp only
  rw [Timebase.pulse_step, hperiod, hlimit, hallow, hc]
  exact if_pos h.2

theorem Timebase.comingTick_keeps {t : Timebase} {sync : Bool} (h : ¬t.steps sync) (first : Bool) :
    (t.comingTick sync first).step = none := by
  cases hsees : t.sees sync with
  | false => rw [Timebase.comingTick_of_not_sees hsees]
  | true =>
    rw [Timebase.comingTick_of_sees hsees]
    have hs := (t.coming sync).expireFirst_settings first
    have hc := (t.coming sync).expireFirst_counter first
    simp only [Timebase.settings, Prod.mk.injEq] at hs
    obtain ⟨-, hperiod, -, hlimit, -, -, -, hallow, -⟩ := hs
    simp only
    rw [Timebase.pulse_step, hperiod, hlimit, hallow, hc]
    exact if_neg fun k => h ⟨(t.sees_iff sync).1 hsees, k⟩

theorem missExpiry_steps (s : State) (sync : Bool) : s.missExpiry.tb.steps sync ↔ s.tb.steps sync := by
  obtain ⟨_, _, _, _, _, e⟩ := s.missExpiry_tb_frame
  rw [e]
  rfl

/-! ### What a tick keeps (R1) -/

theorem blockTick_none_eq (s : State) (samples : BitVec 64) (v : Time) :
    ∃ ls xs gs, s.blockTick samples none v = { s with lines := ls, slots := xs, groups := gs } := ⟨_, _, _, rfl⟩

theorem blockTick_drawn (s : State) (samples : BitVec 64) (step : Option Time) (v : Time) :
    (s.blockTick samples step v).drawn = s.drawn := by
  unfold State.blockTick
  cases step with
  | none => rfl
  | some a =>
    simp only
    obtain ⟨_, _, _, _, e⟩ := stepEntries_frame (s.tickLines samples (some a)).countSlots.countAges.runNotice v
    rw [e]
    rfl

theorem makeTick_drawn (s : State) (samples : BitVec 64) (sync first : Bool) :
    (s.makeTick samples sync first).drawn = s.drawn := by
  rw [makeTick_eq, blockTick_drawn]
  obtain ⟨_, _, _, _, e⟩ := timebaseTick_frame s sync first
  rw [e]

/-- A tick that makes no step, on a part with no claim waiting. -/
theorem makeTick_unstepped {u : State} (hr : u.tb.state ≠ .stopped) (samples : BitVec 64) {sync first : Bool}
    (h : ¬u.tb.steps sync) : ∃ tb ls xs gs cl cs fl, u.makeTick samples sync first = { u with
      tb := tb, lines := ls, slots := xs, groups := gs, claims := cl, causes := cs, errFlags := fl } := by
  rw [makeTick_eq, slewAdjust_tick hr, Timebase.comingTick_keeps h]
  obtain ⟨tb, cl, cs, fl, e⟩ := timebaseTick_frame u sync first
  obtain ⟨ls, xs, gs, e'⟩ := blockTick_none_eq (u.timebaseTick sync first) samples (u.tb.comingTick sync first).before
  rw [e', e]
  exact ⟨tb, ls, xs, gs, cl, cs, fl, rfl⟩

/-- A tick with no evaluated pulse, on a part with no claim waiting. -/
theorem makeTick_pulseless {u : State} (hr : u.tb.state ≠ .stopped) (hc : u.claims = []) (samples : BitVec 64)
    {sync first : Bool} (h : u.tb.sees sync = false) : ∃ tb ls xs gs, u.makeTick samples sync first = { u with
      tb := tb, lines := ls, slots := xs, groups := gs } := by
  have hx := Timebase.comingTick_of_not_sees h first
  rw [makeTick_eq, slewAdjust_tick hr, hx]
  obtain ⟨ls, xs, gs, e⟩ := blockTick_none_eq (u.timebaseTick sync first) samples (u.tb.coming sync).counter
  refine ⟨(u.tb.coming sync).ticked, ls, xs, gs, e.trans ?_⟩
  rw [timebaseTick_eq hr hc hx]
  simp [syncClaims, holdoverClaims, hc]

/-- Settles O25. -/
theorem tickCompletesThePrecedingTick : Obligations.TickCompletesThePrecedingTick := by
  intro s u f
  have hf : f = s.finishTick := s.runCommands_finish
  refine ⟨?_, completeTick_claims s, fun h => hf.trans (finishTick_stopped h), fun h =>
    ⟨fun n => ⟨completeTick_qualifies h n, ?_⟩, fun i => ?_, completeTick_commitDue h, completeTick_ageDue h,
      fun ht => ?_, fun hs ho => completeTick_headReached h ⟨hs, (scheduleOrdered_iff_ordered s).1 ho⟩,
      fun samples sync first => ?_⟩⟩
  · rw [hf, State.runCommands_takeClaims]
    rfl
  · rw [State.releaseDue_congr (completeTick_lines s), finishCapture_releaseDue (missExpiry_state_ne_stopped h)]
  · rw [State.delayDue_congr (completeTick_slots s), State.widthDue_congr (completeTick_slots s)]
    exact finishCapture_slotDue (missExpiry_state_ne_stopped h) i
  · rw [completeTick_tb]
    exact missExpiry_expiryDue ht
  · have hr : s.completeTick.tb.state ≠ .stopped := completeTick_state_ne_stopped h
    have hc : u.claims = [] := completeTick_claims s
    have hframe := s.missExpiry_tb_frame
    have hsteps : u.tb.steps sync ↔ s.tb.steps sync := by
      rw [completeTick_tb, missExpiry_steps]
    have hsees : u.tb.sees sync = s.tb.sees sync := by
      obtain ⟨_, _, _, _, _, e⟩ := hframe
      rw [completeTick_tb, e]
      rfl
    intro v pulse steps
    refine ⟨u.makeTick samples sync first, exec_tick_running h samples sync first, fun hp => ?_, fun hs => ?_,
      fun hs => ⟨makeTick_drawn _ _ _ _, fun g => ?_⟩, fun ht m hm => ?_⟩
    · have hnot : u.tb.sees sync = false := by
        rw [hsees, Bool.eq_false_iff, ne_eq, Timebase.sees_iff]
        exact hp
      obtain ⟨tb, ls, xs, gs, e⟩ := makeTick_pulseless (first := first) hr hc samples hnot
      rw [e]
    · obtain ⟨tb, ls, xs, gs, cl, cs, fl, e⟩ := makeTick_unstepped (first := first) hr samples
        (fun k => hs (hsteps.1 k))
      rw [e]
    · have hstep := Timebase.comingTick_steps (hsteps.2 hs) first
      obtain ⟨_, _, _, _, e⟩ := timebaseTick_frame u sync first
      rw [makeTick_eq, slewAdjust_tick hr, hstep, (blockTick_queue_group _ _ _ _ g).1, e,
        Option.isSome_some, if_pos rfl]
      clear_value u
      rfl
    · have hm' : s.missExpiry = m := Host.Outcome.next.inj hm
      have hd := missExpiry_expiryDue ht
      have hrm := missExpiry_state_ne_stopped h
      have hcomplete : s.missExpiry.completeTick = u := completeTick_missExpiry hd
      clear_value u
      rw [hm'] at hcomplete hrm
      rw [exec_tick_running hrm, hcomplete]

end Sys2Proof.Machine
end

section
/-!
PROOFS. TICK at the lines, the slots and the groups, and the delay that a filter makes. Settles O26, O27.
-/
namespace Sys2Proof.Machine
-- Declarations in order: a worker that waits for the kernel holds 1 GiB of the check's memory.
set_option Elab.async false

/-! ### The time value and the epoch of the coming tick (R2, R14, R20) -/

theorem Timebase.expireFirst_epoch (t : Timebase) (b : Bool) : (t.expireFirst b).tb.epoch = t.epoch := by
  unfold Timebase.expireFirst
  split
  · unfold Timebase.expire
    split <;> rfl
  · rfl

theorem Timebase.lockOn_epoch (t : Timebase) (e : Int) : (t.lockOn e).tb.epoch = t.epoch := by
  rw [Timebase.lockOn_eq]

theorem Timebase.badPulse_epoch (t : Timebase) (e : Int) : (t.badPulse e).tb.epoch = t.epoch := by
  unfold Timebase.badPulse
  split
  · split <;> rfl
  · rfl

theorem Timebase.pulse_time (t : Timebase) :
    t.pulse.effect.tb.counter = t.counter + t.pulse.step.getD 0 ∧
      t.pulse.effect.tb.epoch = if t.pulse.step.isSome then t.epoch + 1 else t.epoch := by
  unfold Timebase.pulse
  simp only
  split
  · rw [Timebase.lockOn_counter, Timebase.lockOn_epoch]
    simp
  · split
    · rw [Timebase.lockOn_counter, Timebase.lockOn_epoch]
      exact ⟨BitVec.sub_eq_add_neg _ _, rfl⟩
    · rw [Timebase.badPulse_counter, Timebase.badPulse_epoch]
      simp

theorem Timebase.comingTick_time (t : Timebase) (sync first : Bool) :
    let x := t.comingTick sync first
    x.effect.tb.counter = t.comingTime + x.step.getD 0 ∧
      x.effect.tb.epoch = if x.step.isSome then t.epoch + 1 else t.epoch := by
  intro x
  cases hsees : t.sees sync with
  | false =>
    have hx : x = _ := Timebase.comingTick_of_not_sees hsees first
    rw [hx]
    exact ⟨(BitVec.add_zero _).symm, rfl⟩
  | true =>
    have hx : x = _ := Timebase.comingTick_of_sees hsees first
    rw [hx]
    have hc := (t.coming sync).expireFirst_counter first
    have he := (t.coming sync).expireFirst_epoch first
    obtain ⟨hcounter, hepoch⟩ := ((t.coming sync).expireFirst first).tb.pulse_time
    rw [hc] at hcounter
    rw [he] at hepoch
    exact ⟨hcounter, hepoch⟩

/-! ### A line at a tick (R27, R29 to R31, R34, R37, R42) -/

/-- A pending change at a tick before its sample: a step moves its onset into the new epoch (R42). -/
def Qualifier.moved (step : Option Time) (epoch : BitVec 4) (q : Qualifier) : Qualifier :=
  match step, q with
  | some a, .pending v o k => .pending v { o with time := o.time + a, epoch := epoch, rebased := true } k
  | _, q => q

theorem Line.countTick_lastOnset (l : Line) :
    l.countTick.lastOnset = l.lastOnset ∧ l.countTick.qualifier = l.qualifier := by
  unfold Line.countTick
  split <;> exact ⟨rfl, rfl⟩

theorem Line.moved_eq (step : Option Time) (epoch : BitVec 4) (l : Line) : l.moved step epoch =
    { l.countTick with
      lastOnset := l.lastOnset + step.getD 0, qualifier := l.qualifier.moved step epoch } := by
  obtain ⟨ho, hq⟩ := l.countTick_lastOnset
  cases step with
  | none =>
    have hm : l.moved none epoch = { l.countTick with
        lastOnset := l.countTick.lastOnset, qualifier := l.countTick.qualifier } := rfl
    have hzero : l.lastOnset + (none : Option Time).getD 0 = l.lastOnset := BitVec.add_zero _
    rw [hm, ho, hq, hzero]
    rfl
  | some a =>
    have hm : l.moved (some a) epoch = { l.countTick with
        lastOnset := l.countTick.lastOnset + a
        qualifier := l.countTick.qualifier.moved (some a) epoch } := by
      unfold Line.moved Line.rebase
      cases l.countTick.qualifier <;> rfl
    rw [hm, ho, hq, Option.getD_some]

/-- The qualifier after a sample of an established line (R30, R31). -/
def Qualifier.sampled (q : Qualifier) (level b : Bool) (now : Onset) : Qualifier :=
  match q with
  | .stable => if b = level then .stable else .pending b now 1
  | .pending v o k => if b = v then .pending v o (k + 1) else .stable

theorem Line.sample_established {l : Line} (hs : l.sampled = true) (he : l.established = true) (b : Bool)
    (now : Onset) : l.sample b now = { l with qualifier := l.qualifier.sampled l.level b now } := by
  have hs' : ¬(!l.sampled) = true := by simp [hs]
  have he' : ¬(!l.established) = true := by simp [he]
  unfold Line.sample
  rw [if_neg hs', if_neg he']
  cases h : l.qualifier with
  | stable =>
    simp only [Qualifier.sampled]
    split
    · rw [← h]
    · rfl
  | pending v o k =>
    simp only [Qualifier.sampled]
    split <;> rfl

theorem Line.countTick_established {l : Line} (hs : l.sampled = true) (he : l.established = true) :
    l.countTick = { l with
      interval := countUp l.interval
      window := l.window.map fun w => { w with age := countUp w.age }
      quiet := l.quiet.map (· - 1) } := by
  unfold Line.countTick
  rw [hs, he]
  rfl

theorem Line.countTick_other {l : Line} (h : l.sampled = false ∨ l.established = false) : l.countTick = l := by
  unfold Line.countTick
  refine if_neg ?_
  rcases h with h | h <;> simp [h]

/-- What a tick makes of a line. -/
theorem Line.tick_eq (l : Line) (step : Option Time) (epoch : BitVec 4) (b : Bool) (now : Onset) :
    (l.moved step epoch).sample b now =
      if ¬(l.state = .live ∨ l.state = .suppressed) then
        { l with qualifier := l.qualifier.moved step epoch, lastOnset := l.lastOnset + step.getD 0 }
      else if l.established = false then
        { l with
          established := true, level := b
          qualifier := l.qualifier.moved step epoch, lastOnset := l.lastOnset + step.getD 0 }
      else { l with
        lastOnset := l.lastOnset + step.getD 0
        interval := countUp l.interval
        window := l.window.map fun w => { w with age := countUp w.age }
        quiet := l.quiet.map (· - 1)
        qualifier := (l.qualifier.moved step epoch).sampled l.level b now } := by
  rw [Line.moved_eq]
  split
  · next h =>
    have hs : l.sampled = false := by rwa [Bool.eq_false_iff, ne_eq, Line.sampled_iff]
    rw [Line.countTick_other (.inl hs)]
    have hs' : Line.sampled { l with
      lastOnset := l.lastOnset + step.getD 0, qualifier := l.qualifier.moved step epoch } = false := hs
    unfold Line.sample
    rw [hs']
    rfl
  · next h =>
    have hs : l.sampled = true := l.sampled_iff.2 (not_not.1 h)
    split
    · next he =>
      rw [Line.countTick_other (.inr he)]
      have hs' : Line.sampled { l with
        lastOnset := l.lastOnset + step.getD 0, qualifier := l.qualifier.moved step epoch } = true := hs
      unfold Line.sample
      rw [hs', he]
      rfl
    · next he =>
      have he' : l.established = true := by simpa using he
      rw [Line.countTick_established hs he']
      exact Line.sample_established (l := { l with
        lastOnset := l.lastOnset + step.getD 0
        interval := countUp l.interval
        window := l.window.map fun w => { w with age := countUp w.age }
        quiet := l.quiet.map (· - 1)
        qualifier := l.qualifier.moved step epoch }) hs he' b now

/-! ### The tick -/

/-- A line after the tick that completes its predecessor in `u`. -/
theorem makeTick_line {u t : State} (hr : u.tb.state ≠ .stopped) {samples : BitVec 64} {sync first : Bool}
    (ht : u.makeTick samples sync first = t) (n : LineNo) :
    t.lines.get n = ((u.lines.get n).moved (u.tb.comingTick sync first).step t.tb.epoch).sample
      (samples.getLsbD n.val) ⟨t.tb.counter, t.tb.epoch, t.tb.tickState, false⟩ := by
  rw [makeTick_eq, slewAdjust_tick hr] at ht
  have htb : t.tb = (u.timebaseTick sync first).tb := by
    obtain ⟨_, _, _, _, _, _, _, _, _, e⟩ := blockTick_frame (u.timebaseTick sync first) samples
      (u.tb.comingTick sync first).step (u.tb.comingTick sync first).before
    rw [← ht, e]
  have hlines : (u.timebaseTick sync first).lines = u.lines := by
    obtain ⟨_, _, _, _, e⟩ := timebaseTick_frame u sync first
    rw [e]
  rw [htb, ← hlines, ← ht, blockTick_lines, tickLines_get]

theorem makeTick_slot (u : State) (samples : BitVec 64) (sync first : Bool) (i : SlotNo) :
    (u.makeTick samples sync first).slots.get i =
      { u.slots.get i with timer := (u.slots.get i).timer.map (· - 1) } := by
  rw [makeTick_eq, blockTick_slots]
  obtain ⟨_, _, _, _, e⟩ := timebaseTick_frame u sync first
  rw [e]
  exact Bank.get_map _ _ _

/-- Settles O26. -/
theorem tickSamplesEveryLine : Obligations.TickSamplesEveryLine := by
  intro samples sync first s h u v e steps amount
  have hr : s.completeTick.tb.state ≠ .stopped := completeTick_state_ne_stopped h
  obtain ⟨hcounter, hepoch⟩ := s.missExpiry.tb.comingTick_time sync first
  rw [← completeTick_makeTick_tb h samples] at hcounter hepoch
  have hcoming : s.missExpiry.tb.comingTime = v ∧ s.missExpiry.tb.comingError = e ∧
      s.missExpiry.tb.epoch = s.tb.epoch := by
    obtain ⟨_, _, _, _, _, hframe⟩ := s.missExpiry_tb_frame
    rw [hframe]
    exact ⟨rfl, rfl, rfl⟩
  have hstep : (s.missExpiry.tb.comingTick sync first).step = if steps then some amount else none := by
    have hiff : s.missExpiry.tb.steps sync ↔ steps := (missExpiry_steps s sync).trans
      ⟨fun ⟨⟨a, b, c⟩, k⟩ => ⟨a, b, c, k⟩, fun ⟨a, b, c, k⟩ => ⟨⟨a, b, c⟩, k⟩⟩
    by_cases hs : steps
    · have ha : amount = -BitVec.ofInt 48 e := if_pos hs
      rw [if_pos hs, Timebase.comingTick_steps (hiff.2 hs), hcoming.2.1, ha]
    · rw [if_neg hs, Timebase.comingTick_keeps (fun k => hs (hiff.1 k))]
  have hamount : (s.missExpiry.tb.comingTick sync first).step.getD 0 = amount := by
    rw [hstep]
    by_cases hs : steps
    · rw [if_pos hs]
      rfl
    · rw [if_neg hs]
      exact (if_neg hs).symm
  have hline := makeTick_line hr (samples := samples) (sync := sync) (first := first) rfl
  have hgroup := makeTick_queue_group u samples sync first
  rw [completeTick_tb] at hline
  refine ⟨_, exec_tick_running h samples sync first, ?_, ?_, fun n => ?_, fun i => makeTick_slot _ _ _ _ _,
    fun g => (hgroup g).2⟩
  · rw [hcounter, hcoming.1, hamount]
  · rw [hepoch, hcoming.2.2, hstep]
    by_cases hs : steps
    · rw [if_pos hs, if_pos hs, Option.isSome_some, if_pos rfl]
    · rw [if_neg hs, if_neg hs, Option.isSome_none, if_neg Bool.false_ne_true]
  · intro l b q
    have hq : l.qualifier.moved (s.missExpiry.tb.comingTick sync first).step
        (s.completeTick.makeTick samples sync first).tb.epoch = q := by
      rw [hstep]
      cases hql : l.qualifier with
      | stable =>
        have hqs : q = .stable := by simp only [q, hql]
        rw [hqs]
        split <;> rfl
      | pending v o k =>
        by_cases hs : steps
        · have hqs : q = .pending v ⟨o.time + amount, (s.completeTick.makeTick samples sync first).tb.epoch,
              o.state, true⟩ k := by simp only [q, hql, if_pos hs]
          rw [if_pos hs, hqs]
          rfl
        · have hqs : q = .pending v o k := by simp only [q, hql, if_neg hs]
          rw [if_neg hs, hqs]
          rfl
    have hl := (hline n).trans (Line.tick_eq _ _ _ _ _)
    have hlu : s.completeTick.lines.get n = l := rfl
    rw [hlu, hq, hamount] at hl
    generalize s.completeTick.makeTick samples sync first = t at hl ⊢
    clear_value q amount l
    refine hl.trans ?_
    cases q <;> rfl

/-! ### A line with no qualification due at a tick -/

theorem qualify_line {s : State} {n : LineNo} (h : (s.lines.get n).qualifies = false) (m : LineNo) :
    (s.qualify m).lines.get n = s.lines.get n := by
  unfold State.qualify
  rcases s.whenTickDue_cases (s.lines.get m).qualifies (fun t =>
    match (t.lines.get m).qualifier with | .stable => t | .pending v o _ => t.handleChange m v o)
    with ⟨-, hm, e⟩ | ⟨-, e⟩
  · refine (congrArg (fun t : State => t.lines.get n) e).trans ?_
    have hne : n ≠ m := fun k => by rw [← k, h] at hm; cases hm
    cases (s.lines.get m).qualifier with
    | stable => rfl
    | pending v o k =>
      simp only
      obtain ⟨l, hl, -⟩ := handleChange_lines s m v o
      rw [hl, Bank.get_set_ne _ hne]
  · exact congrArg (fun t : State => t.lines.get n) e

theorem releaseIfDue_line (s : State) (n m : LineNo) : (s.releaseIfDue m).lines.get n = s.lines.get n ∨
    (s.releaseIfDue m).lines.get n = (s.lines.get n).released := by
  unfold State.releaseIfDue
  rcases s.whenTickDue_cases (s.releaseDue m) (fun t => t.releaseLine m) with ⟨-, -, e⟩ | ⟨-, e⟩
  · rw [e, State.releaseLine_lines, Bank.get_set]
    split
    · next h => rw [h]; exact .inr rfl
    · exact .inl rfl
  · exact .inl (congrArg (fun t : State => t.lines.get n) e)

/-- The completion of a tick leaves a line with no qualification due, or releases it (R41). -/
theorem completeTick_line {s : State} {n : LineNo} (h : (s.lines.get n).qualifies = false) :
    s.completeTick.lines.get n = s.lines.get n ∨ s.completeTick.lines.get n = (s.lines.get n).released := by
  have hm : s.missExpiry.lines = s.lines := by
    obtain ⟨_, _, _, _, e⟩ := timebaseOnly_missExpiry s
    rw [e]
  have hq : (forEach (fun n t => t.qualify n) s.missExpiry).lines.get n = s.lines.get n :=
    forEach_keeps (P := fun t => t.lines.get n = s.lines.get n)
      (fun m t ht => by rw [qualify_line (by rwa [ht]), ht]) (by rw [hm])
  have hr (t : State) (ht : t.lines.get n = s.lines.get n) :
      (forEach (fun n t => t.releaseIfDue n) t).lines.get n = s.lines.get n ∨
        (forEach (fun n t => t.releaseIfDue n) t).lines.get n = (s.lines.get n).released :=
    forEach_keeps (P := fun t => t.lines.get n = s.lines.get n ∨ t.lines.get n = (s.lines.get n).released)
      (fun m t ht => by
        rcases releaseIfDue_line t n m with e | e <;> rcases ht with ht | ht <;> rw [e, ht]
        · exact .inl rfl
        · exact .inr rfl
        · exact .inr rfl
        · exact .inr rfl) (.inl ht)
  have hd (t : State) : (forEach (fun i t => t.delayOut i) t).lines = t.lines :=
    forEach_same (·.lines) (fun i t => (reflexOnly_delayOut t i).lines) t
  have hw (t : State) : (forEach (fun i t => t.widthOut i) t).lines = t.lines :=
    forEach_same (·.lines) (fun i t => (reflexOnly_widthOut t i).lines) t
  rw [completeTick_lines]
  unfold State.finishCapture
  simp only
  rw [hw, hd]
  exact hr _ hq

/-- A tick with SYNC low at a sampled line whose level is established and that has no qualification due. -/
theorem quietTick_line {s : State} (h : s.tb.state ≠ .stopped) (samples : BitVec 64) {n : LineNo}
    (hs : (s.lines.get n).sampled = true) (he : (s.lines.get n).established = true)
    (hq : (s.lines.get n).qualifies = false) : ∃ t, exec (.tick samples false false) s = .next t ∧
      t.tb.state ≠ .stopped ∧ (t.lines.get n).sampled = true ∧ (t.lines.get n).established = true ∧
      (t.lines.get n).config = (s.lines.get n).config ∧ (t.lines.get n).level = (s.lines.get n).level ∧
      (t.lines.get n).qualifier = (s.lines.get n).qualifier.sampled (s.lines.get n).level
        (samples.getLsbD n.val) ⟨t.tb.counter, t.tb.epoch, t.tb.tickState, false⟩ := by
  have hr : s.completeTick.tb.state ≠ .stopped := completeTick_state_ne_stopped h
  obtain ⟨t, ht, hrun, -⟩ := exec_tick_quiet h samples
  have htick : s.completeTick.makeTick samples false false = t :=
    Host.Outcome.next.inj ((exec_tick_running h samples false false).symm.trans ht)
  have hline := makeTick_line hr htick n
  have hnot : s.completeTick.tb.sees false = false := by
    rw [Bool.eq_false_iff, ne_eq, Timebase.sees_iff]
    exact fun k => nomatch k.2.1
  rw [Timebase.comingTick_of_not_sees hnot, Line.tick_eq] at hline
  have hl := completeTick_line hq
  obtain ⟨hls, hle, hlc, hll, hlq⟩ : (s.completeTick.lines.get n).sampled = true ∧
      (s.completeTick.lines.get n).established = true ∧
      (s.completeTick.lines.get n).config = (s.lines.get n).config ∧
      (s.completeTick.lines.get n).level = (s.lines.get n).level ∧
      (s.completeTick.lines.get n).qualifier = (s.lines.get n).qualifier := by
    rcases hl with e | e <;> rw [e]
    · exact ⟨hs, he, rfl, rfl, rfl⟩
    · exact ⟨rfl, rfl, rfl, rfl, rfl⟩
  generalize s.completeTick.lines.get n = l at hline hls hle hlc hll hlq
  rw [if_neg (not_not.2 (l.sampled_iff.1 hls)), if_neg (by simp [hle])] at hline
  refine ⟨t, ht, hrun, ?_⟩
  rw [hline, ← hlc, ← hll, ← hlq]
  exact ⟨hls, hle, rfl, rfl, rfl⟩

/-- A line has sampled the level opposite to the one of `l` for `k` ticks, the first with onset `o`. -/
structure Pends (l m : Line) (o : Onset) (k : Nat) : Prop where
  sampled : m.sampled = true
  established : m.established = true
  config : m.config = l.config
  level : m.level = l.level
  qualifier : m.qualifier = .pending (!l.level) o k

theorem Pends.qualifies {l m : Line} {o : Onset} {k : Nat} (h : Pends l m o k) :
    m.qualifies = decide (l.config.filter.toNat + 1 ≤ k) := by
  unfold Line.qualifies
  rw [h.qualifier, h.config]

theorem Pends.tick {s : State} (h : s.tb.state ≠ .stopped) {samples : BitVec 64} {n : LineNo} {l : Line} {o : Onset}
    {k : Nat} (hp : Pends l (s.lines.get n) o k) (hk : k ≤ l.config.filter.toNat)
    (hb : samples.getLsbD n.val = !l.level) : ∃ t, exec (.tick samples false false) s = .next t ∧
      t.tb.state ≠ .stopped ∧ Pends l (t.lines.get n) o (k + 1) := by
  obtain ⟨t, ht, hr, hs, he, hc, hl, hq⟩ := quietTick_line h samples hp.sampled hp.established
    (by rw [hp.qualifies]; exact decide_eq_false (by omega))
  refine ⟨t, ht, hr, hs, he, hc.trans hp.config, hl.trans hp.level, hq.trans ?_⟩
  rw [hp.qualifier, hb]
  exact if_pos rfl

/-- Settles O27. -/
theorem filterDelaysAChangeByItsTicks : Obligations.FilterDelaysAChangeByItsTicks := by
  intro samples s n h l hs he hst hb k hk hkf onset m
  have hl : l.qualifies = false := Line.qualifies_stable hst
  obtain ⟨t, ht, hr, hts, hte, htc, htl, htq⟩ := quietTick_line h samples ((l.sampled_iff).2 hs) he hl
  have hone : s.quietTicks samples 1 = t := State.quietTicks_succ ht 0
  have hfirst : Pends l (t.lines.get n) ⟨t.tb.counter, t.tb.epoch, t.tb.tickState, false⟩ 1 := by
    refine ⟨hts, hte, htc, htl, htq.trans ?_⟩
    rw [show (s.lines.get n).qualifier = .stable from hst, hb]
    exact if_neg (by cases l.level <;> decide)
  have hall : (s.quietTicks samples k).tb.state ≠ .stopped ∧
      Pends l ((s.quietTicks samples k).lines.get n) ⟨t.tb.counter, t.tb.epoch, t.tb.tickState, false⟩ k := by
    induction k, hk using Nat.le_induction with
    | base => rw [hone]; exact ⟨hr, hfirst⟩
    | succ k hk ih =>
      obtain ⟨hrun, hp⟩ := ih (by omega)
      obtain ⟨t', ht', hr', hp'⟩ := hp.tick hrun (by omega) hb
      rw [State.quietTicks_add, show (s.quietTicks samples k).quietTicks samples 1 = t' from State.quietTicks_succ ht' 0]
      exact ⟨hr', hp'⟩
  have honset : onset = t.tb := congrArg State.tb hone
  rw [honset]
  refine ⟨hall.2.qualifier, hall.2.level, ?_⟩
  rw [show m.qualifies = _ from hall.2.qualifies, decide_eq_true_iff]
  omega

end Sys2Proof.Machine
end

section
/-!
PROOFS. QUALIFICATION and RELEASE of a line. Settles O28, O29.
-/
namespace Sys2Proof.Machine
-- Declarations in order: a worker that waits for the kernel holds 1 GiB of the check's memory.
set_option Elab.async false

theorem TimebaseState.bne_locked (x : TimebaseState) : (x != .locked) = decide (x ≠ .locked) := by
  cases x <;> rfl

/-! ### QUALIFICATION (R31 to R40) -/

theorem State.qualify_waits {s : State} {n : LineNo} (h : s.tb.state = .stopped ∨ (s.lines.get n).qualifies = false) :
    s.qualify n = s := by
  rcases h with h | h
  · exact State.whenTickDue_stopped h _ _
  · unfold State.qualify
    rw [h, State.whenTickDue_false]

theorem State.qualify_due {s : State} (hr : s.tb.state ≠ .stopped) {n : LineNo} {v : Bool} {o : Onset} {k : Nat}
    (hq : (s.lines.get n).qualifier = .pending v o k) (hk : (s.lines.get n).config.filter.toNat + 1 ≤ k) :
    s.qualify n = s.handleChange n v o := by
  have hdue : (s.lines.get n).qualifies = true := by
    unfold Line.qualifies
    rw [hq]
    exact decide_eq_true hk
  unfold State.qualify
  rw [State.whenTickDue_running hr, hdue]
  change (match (s.lines.get n).qualifier with | .stable => s | .pending v o _ => s.handleChange n v o) = _
  rw [hq]

theorem EdgeSelect.selects_iff (e : EdgeSelect) (v : Bool) : e.selects v = true ↔
    e = .both ∨ (e = .rise ∧ v = true) ∨ (e = .fall ∧ v = false) := by
  cases e <;> simp [EdgeSelect.selects]

/-- The levels the slots read, with the change of line n qualified (R43). -/
theorem State.gateLevels_setLine {s : State} {n : LineNo} {v : Bool} {o : Onset} {k : Nat}
    (hq : (s.lines.get n).qualifier = .pending v o k) (hk : (s.lines.get n).config.filter.toNat + 1 ≤ k)
    {l : Line} (hl : l.level = v) (hs : l.qualifier = .stable) {t : State} (ht : t.lines = s.lines.set n l) :
    t.gateLevels = s.gateLevels := by
  funext m
  unfold State.gateLevels
  rw [ht, Bank.get_set]
  split
  · next hm =>
    have hafter : (s.lines.get n).levelAfter = v := by
      unfold Line.levelAfter Line.qualifies
      rw [hq]
      exact if_pos (decide_eq_true hk)
    rw [hm, hafter, ← hl]
    unfold Line.levelAfter
    rw [hs]
  · rfl

/-- The level of a line after the qualifications of its tick, in the words of R31. -/
theorem Line.levelAfter_eq (l : Line) : l.levelAfter = (match l.qualifier with
    | .stable => l.level
    | .pending w _ j => if l.config.filter.toNat + 1 ≤ j then w else l.level) := by
  unfold Line.levelAfter Line.qualifies
  cases l.qualifier with
  | stable => rfl
  | pending w o j =>
    simp only [decide_eq_true_eq]

/-- A change that is recorded (R33 to R35, R38). -/
theorem State.recordEdge_eq (s : State) (n : LineNo) (v : Bool) (o : Onset) (w : Option ChatterWindow) :
    let l := s.lines.get n
    s.recordEdge n v o w = { s with
      lines := s.lines.set n { l with
        window := w, interval := l.config.filter.toNat, firstMark := false, lastOnset := o.time
        level := v, qualifier := .stable }
      claims := insertClaim ⟨.input n, true, edgeRecord n l v o (Config.openInterval s.drawn)⟩ s.claims
      drawn := if l.firstMark = false ∧ l.interval < l.config.filter.toNat then s.drawn + 1 else s.drawn } := by
  intro l
  unfold State.recordEdge State.drawIf
  have hopen : l.intervalOpen = true ↔ l.firstMark = false ∧ l.interval < l.config.filter.toNat := by
    unfold Line.intervalOpen
    simp
  simp only
  by_cases h : l.firstMark = false ∧ l.interval < l.config.filter.toNat
  · rw [if_pos h, if_pos (hopen.2 h)]
    rfl
  · rw [if_neg h, if_neg (fun k => h (hopen.1 k))]
    rfl

/-- The EDGE record of R33, its interval as R34 gives it. -/
theorem edgeRecord_eq (n : LineNo) (l : Line) (v : Bool) (o : Onset) (x : BitVec 32) : edgeRecord n l v o x =
    { kind := .edge, epoch := o.epoch, source := BitVec.ofNat 6 n.val, time := o.time
      interval :=
        if l.firstMark ∨ l.interval = 2 ^ 32 - 1 then 0xFFFFFFFF
        else if l.interval < l.config.filter.toNat then x
        else BitVec.ofNat 32 (l.interval - l.config.filter.toNat)
      flags := {
        rise := v, first := l.firstMark, sat := !l.firstMark && decide (l.interval = 2 ^ 32 - 1)
        urgent := l.config.urgent, stepped := o.rebased, unsync := decide (o.state ≠ .locked) } } := by
  have hu : (o.state != .locked) = decide (o.state ≠ .locked) := o.state.bne_locked
  have hx : l.intervalOf x = (l.firstMark, !l.firstMark && decide (l.interval = 2 ^ 32 - 1),
      if l.firstMark ∨ l.interval = 2 ^ 32 - 1 then 0xFFFFFFFF
      else if l.interval < l.config.filter.toNat then x
      else BitVec.ofNat 32 (l.interval - l.config.filter.toNat)) := by
    unfold Line.intervalOf
    cases l.firstMark with
    | true => rfl
    | false =>
      simp only [Bool.false_eq_true, if_false, false_or, Bool.not_false, Bool.true_and]
      by_cases hm : l.interval = 2 ^ 32 - 1
      · rw [if_pos (show l.interval = Config.tickCounterMax from hm), if_pos hm, decide_eq_true hm]
        rfl
      · rw [if_neg (show ¬l.interval = Config.tickCounterMax from hm), if_neg hm, decide_eq_false hm]
        split <;> rfl
  unfold edgeRecord
  rw [hx, hu]
  rfl

/-- The chatter check in the cases of R36 and R38. -/
theorem Line.chatterCheck_cases (l : Line) (h : l.config.chatterLimit ≠ 0) :
    let f := l.config.filter.toNat
    (l.window = none → l.chatterCheck = some (some ⟨1, f⟩)) ∧
    ∀ w, l.window = some w →
      (l.config.chatterWindow.toNat + f ≤ w.age → l.chatterCheck = some (some ⟨1, f⟩)) ∧
      (w.age < l.config.chatterWindow.toNat + f → w.count < l.config.chatterLimit.toNat →
        l.chatterCheck = some (some ⟨w.count + 1, w.age⟩)) ∧
      (w.age < l.config.chatterWindow.toNat + f → l.config.chatterLimit.toNat ≤ w.count →
        l.chatterCheck = none) := by
  have hc : l.chatterCheck = (match l.window with
      | none => some (some ⟨1, l.config.filter.toNat⟩)
      | some w =>
        if l.config.chatterWindow.toNat + l.config.filter.toNat ≤ w.age then
          some (some ⟨1, l.config.filter.toNat⟩)
        else if w.count < l.config.chatterLimit.toNat then some (some { w with count := w.count + 1 })
        else none) := if_neg h
  intro f
  refine ⟨fun hw => by rw [hc, hw], fun w hw => ⟨fun ha => ?_, fun ha hn => ?_, fun ha hn => ?_⟩⟩
  · rw [hc, hw]
    exact if_pos ha
  · rw [hc, hw]
    exact (if_neg (by omega)).trans (if_pos hn)
  · rw [hc, hw]
    exact (if_neg (by omega)).trans (if_neg (by omega))

/-- A selected change of a LIVE line that the check lets through. -/
theorem State.handleChange_recorded {s : State} {n : LineNo} {v : Bool} {o : Onset} {w : Option ChatterWindow}
    (hl : (s.lines.get n).state = .live) (hs : (s.lines.get n).config.edge.selects v = true)
    (hc : (s.lines.get n).chatterCheck = some w) : s.handleChange n v o =
      (s.recordEdge n v o w).passChange n v (s.recordEdge n v o w).gateLevels := by
  unfold State.handleChange
  simp only [hl, hs, hc, if_true]

theorem State.handleChange_suppressed {s : State} {n : LineNo} {v : Bool} {o : Onset}
    (hl : (s.lines.get n).state = .live) (hs : (s.lines.get n).config.edge.selects v = true)
    (hc : (s.lines.get n).chatterCheck = none) : s.handleChange n v o =
      (s.setLine n ((s.lines.get n).suppressedBy.qualified v)).offer (.input n) true
        (suppressRecord n (s.lines.get n) v o) := by
  unfold State.handleChange
  simp only [hl, hs, hc, if_true]

theorem State.handleChange_unselected {s : State} {n : LineNo} {v : Bool} {o : Onset}
    (hl : (s.lines.get n).state = .live) (hs : ¬(s.lines.get n).config.edge.selects v = true) :
    s.handleChange n v o = (s.setLine n ((s.lines.get n).qualified v)).passChange n v
      (s.setLine n ((s.lines.get n).qualified v)).gateLevels := by
  unfold State.handleChange
  simp only [hl, if_neg hs]

theorem State.handleChange_quiet {s : State} {n : LineNo} {v : Bool} {o : Onset}
    (hl : (s.lines.get n).state = .suppressed) :
    s.handleChange n v o = s.setLine n ((s.lines.get n).restarted.qualified v) := by
  unfold State.handleChange
  simp only [hl]

/-- Settles O28. -/
theorem qualificationHandlesTheChange : Obligations.QualificationHandlesTheChange := by
  intro n s l f
  have next {t : State} (h : s.qualify n = t) : exec (.qualification n) s = .next t := congrArg _ h
  refine ⟨fun h => next (State.qualify_waits (.inr ?_)), fun h => next (State.qualify_waits (.inl h)),
    fun v o k hr hq hk => ?_⟩
  · unfold Line.qualifies
    cases hq : (s.lines.get n).qualifier with
    | stable => rfl
    | pending v o k => exact decide_eq_false (Nat.not_le.2 (h v o k hq))
  intro put levels selected unsync edge suppress recorded
  have hdue := State.qualify_due hr hq hk
  have hlevels {m : Line} (hm : m.level = v) (hms : m.qualifier = .stable) {t : State}
      (ht : t.lines = s.lines.set n m) : t.gateLevels = levels := by
    rw [State.gateLevels_setLine hq hk hm hms ht]
    funext j
    exact (s.lines.get j).levelAfter_eq
  have hsel : l.config.edge.selects v = true ↔ selected := EdgeSelect.selects_iff _ _
  have hunsync : (o.state != .locked) = unsync := o.state.bne_locked
  have hrec (hl : l.state = .live) (hs : selected) {w : Option ChatterWindow} (hc : l.chatterCheck = some w) :
      recorded w := by
    refine next (hdue.trans ((State.handleChange_recorded hl (hsel.2 hs) hc).trans ?_))
    have he := s.recordEdge_eq n v o w
    simp only [edgeRecord_eq] at he
    rw [hlevels rfl rfl (congrArg State.lines he), he]
  refine ⟨fun hl => next (hdue.trans (State.handleChange_quiet hl)), fun hl hs => next ?_,
    fun hl hs h0 => hrec hl hs (if_pos h0), fun hl hs h0 => ?_⟩
  · rw [hdue, State.handleChange_unselected hl (fun k => hs (hsel.1 k)), hlevels rfl rfl rfl]
    rfl
  · obtain ⟨hnone, hsome⟩ := l.chatterCheck_cases h0
    refine ⟨fun hw => hrec hl hs (hnone hw), fun w hw ha => hrec hl hs ((hsome w hw).1 ha),
      fun w hw ha hn => hrec hl hs ((hsome w hw).2.1 ha hn), fun w hw ha hn => next ?_⟩
    rw [hdue, State.handleChange_suppressed hl (hsel.2 hs) ((hsome w hw).2.2 ha hn), suppressRecord, hunsync]
    rfl

/-! ### RELEASE (R41) -/

theorem releaseRecord_eq (n : LineNo) (l : Line) (s : State) : releaseRecord n l s.tickStamp =
    { kind := .release, epoch := s.tb.tickEpoch, source := BitVec.ofNat 6 n.val, time := s.tb.tickTime
      tag := BitVec.ofNat 16 l.seen, detail := if l.level then 1 else 0
      flags := { urgent := l.config.urgent, unsync := decide (s.tb.tickState ≠ .locked) } } := by
  have hu : s.tickStamp.unsync = decide (s.tb.tickState ≠ .locked) := TimebaseState.bne_locked _
  unfold releaseRecord
  rw [hu]
  rfl

theorem levelRecord_eq (n : LineNo) (l : Line) (s : State) : levelRecord n l s.tickStamp =
    { kind := .level, epoch := s.tb.tickEpoch, source := BitVec.ofNat 6 n.val, time := s.tb.tickTime
      interval := if l.interval = 2 ^ 32 - 1 then 0xFFFFFFFF else BitVec.ofNat 32 l.interval
      flags := {
        rise := l.level, level := l.level, sat := decide (l.interval = 2 ^ 32 - 1)
        urgent := l.config.urgent, unsync := decide (s.tb.tickState ≠ .locked) } } := by
  have hu : s.tickStamp.unsync = decide (s.tb.tickState ≠ .locked) := TimebaseState.bne_locked _
  unfold levelRecord
  rw [hu]
  rfl

/-- Settles O29. -/
theorem releaseReportsTheLine : Obligations.ReleaseReportsTheLine := by
  intro n s l unsync release level t
  have next {t : State} (h : s.releaseIfDue n = t) : exec (.release n) s = .next t := congrArg _ h
  have waits (h : s.releaseDue n = false) : s.releaseIfDue n = s := by
    unfold State.releaseIfDue
    rw [h, State.whenTickDue_false]
  have hover : l.quietOver = true ↔ l.state = .suppressed ∧ l.quiet = some 0 := by
    simp [Line.quietOver]
  refine ⟨fun h => next (waits ?_), fun h => next (waits ?_), fun h => next (State.whenTickDue_stopped h _ _),
    fun hr hs hq hm => next ?_⟩
  · rw [State.releaseDue_eq, Bool.eq_false_iff.2 (fun k => h (hover.1 k)), Bool.false_and]
  · rw [State.releaseDue_eq, show s.someQualifies = true from (anyIdx_iff _).2 h, Bool.not_true, Bool.and_false]
  · have hdue : s.releaseDue n = true := by
      rw [State.releaseDue_eq, State.someQualifies_eq_false hm, Bool.not_false, Bool.and_true]
      exact hover.2 ⟨hs, hq⟩
    unfold State.releaseIfDue
    rw [State.whenTickDue_running hr, hdue]
    change s.releaseLine n = _
    unfold State.releaseLine
    simp only [releaseRecord_eq, levelRecord_eq]
    rfl

end Sys2Proof.Machine
end

section
/-!
PROOFS. The pulse of a slot: its delay, its width, and ARM, CLEAR and DISARM. Settles O31, O32.
-/
namespace Sys2Proof.Machine
-- Declarations in order: a worker that waits for the kernel holds 1 GiB of the check's memory.
set_option Elab.async false

/-! ### Re-evaluation and BLOCKED (R93, R106) -/

theorem State.blockedFor_iff (s : State) (owner : Owner) (mask : BitVec 32) : s.blockedFor owner mask = true ↔
    ∃ n : OutNo, mask.getLsbD n.val = true ∧ (s.outputs.get n).owner ≠ owner := by
  unfold State.blockedFor covers
  rw [anyIdx_iff]
  simp

theorem State.reevaluate_get_eq (s : State) (n : OutNo) : s.reevaluate.outputs.get n =
    if (s.outputs.get n).owner = .reflex then
      { s.outputs.get n with claimed := if s.assertedOn n then !(s.outputs.get n).safe else (s.outputs.get n).safe }
    else s.outputs.get n := by
  rw [State.reevaluate_get]
  by_cases ho : (s.outputs.get n).owner = .reflex
  · rw [if_pos ho, if_pos (beq_iff_eq.2 ho)]
    rfl
  · rw [if_neg ho, if_neg (fun k => ho (beq_iff_eq.1 k))]

theorem State.setFlagIf_blocked (s : State) (c : Bool) :
    s.setFlagIf c .blocked = { s with errFlags := if c then s.errFlags ||| 0x20 else s.errFlags } := by
  cases c <;> rfl

/-- The claims with a reflex record offered where the slot reports. -/
def reflexClaims (i : SlotNo) (x : Slot) (b : Bool) (r : Record) (cs : List Claim) : List Claim :=
  if x.config.report then insertClaim ⟨.reflex i, b, r⟩ cs else cs

theorem State.reportReflex_eq (s : State) (i : SlotNo) (b : Bool) (r : Record) :
    s.reportReflex i b r = { s with claims := reflexClaims i (s.slots.get i) b r s.claims } := by
  unfold State.reportReflex reflexClaims
  split <;> rfl

theorem reflexClaims_of_config {i : SlotNo} {x y : Slot} (h : y.config = x.config) (b : Bool) (r : Record)
    (cs : List Claim) : reflexClaims i y b r cs = reflexClaims i x b r cs := by
  unfold reflexClaims
  rw [h]

/-! ### The pulse (R110, R115, R120) -/

theorem State.assertSlot_eq (s : State) (i : SlotNo) : let x := s.slots.get i
    s.assertSlot i = { ({ s with slots := s.slots.set i x.assert } : State).reevaluate with
      claims := reflexClaims i x true (reflexOnRecord i x s.tickStamp) s.claims
      errFlags := if s.blockedFor .reflex x.config.mask then s.errFlags ||| 0x20 else s.errFlags } := by
  intro x
  have h : s.assertSlot i = ((s.setSlot i x.assert).beginAssert x.config.mask).reportReflex i true
      (reflexOnRecord i x s.tickStamp) := rfl
  have hx : ((s.setSlot i x.assert).beginAssert x.config.mask).slots.get i = x.assert := by
    rw [State.beginAssert_slots, State.setSlot_slots, Bank.get_set_eq]
  rw [h, State.reportReflex_eq, hx, reflexClaims_of_config (Slot.assert_config x), State.beginAssert,
    State.setFlagIf_blocked]
  rfl

theorem Slot.complete_eq (x : Slot) : let fired := min (x.firings.toNat + 1) 65535
    x.complete = { x with
      firings := BitVec.ofNat 16 fired, timer := none
      state := if x.config.countLimit ≠ 0 ∧ fired = x.config.countLimit.toNat then .disarmed else .armed } := by
  intro fired
  have hn : (satInc x.firings).toNat = fired := by
    show (BitVec.ofNat 16 fired).toNat = fired
    rw [BitVec.toNat_ofNat]
    omega
  unfold Slot.complete
  simp only [hn]
  rfl

theorem State.completePulse_eq (s : State) (i : SlotNo) (c : EndCause) (b : Bool) (st : Stamp) :
    let x := s.slots.get i
    s.completePulse i c b st = { ({ s with slots := s.slots.set i x.complete } : State).reevaluate with
      claims := reflexClaims i x b (reflexOffRecord i x c st) s.claims } := by
  intro x
  have h : s.completePulse i c b st = (s.setSlot i x.complete).reevaluate.reportReflex i b
      (reflexOffRecord i x c st) := rfl
  have hx : (s.setSlot i x.complete).reevaluate.slots.get i = x.complete := Bank.get_set_eq _ _ _
  rw [h, State.reportReflex_eq, hx, reflexClaims_of_config (show x.complete.config = x.config from rfl)]
  rfl

theorem State.disarmSlot_asserting {s : State} {i : SlotNo} (h : (s.slots.get i).asserting = true) (c : EndCause) :
    let x := s.slots.get i
    s.disarmSlot i c =
      { ({ s with slots := s.slots.set i { x with state := .disarmed, timer := none } } : State).reevaluate with
        claims := reflexClaims i x false (reflexOffRecord i x c s.eventStamp) s.claims } := by
  intro x
  have h' : s.disarmSlot i c = (s.setSlot i { x with state := .disarmed, timer := none }).reevaluate.reportReflex i
      false (reflexOffRecord i x c s.eventStamp) := if_pos h
  have hx : (s.setSlot i { x with state := .disarmed, timer := none }).reevaluate.slots.get i =
      { x with state := .disarmed, timer := none } := Bank.get_set_eq _ _ _
  rw [h', State.reportReflex_eq, hx, reflexClaims_of_config (x := x) rfl]
  rfl

theorem State.disarmSlot_quiet {s : State} {i : SlotNo} (h : (s.slots.get i).asserting = false) (c : EndCause) :
    s.disarmSlot i c =
      { s with slots := s.slots.set i { s.slots.get i with state := .disarmed, timer := none } } :=
  if_neg (Bool.eq_false_iff.1 h)

/-! ### DELAY_RUNS_OUT and WIDTH_RUNS_OUT (R111, R115) -/

theorem State.delayDue_iff (s : State) (i : SlotNo) : s.delayDue i = true ↔
    (s.slots.get i).state = .delaying ∧ (s.slots.get i).timer = some 0 := by
  simp [State.delayDue]

theorem State.widthDue_iff (s : State) (i : SlotNo) : s.widthDue i = true ↔
    (s.slots.get i).state = .active ∧ (s.slots.get i).timer = some 0 := by
  simp [State.widthDue]

theorem State.whenTickDue_due {s : State} (h : s.tb.state ≠ .stopped) {b : Bool} (hb : b = true) (f : State → State) :
    s.whenTickDue b f = f s := by
  rw [State.whenTickDue_running h, hb]
  rfl

theorem State.whenTickDue_notDue {s : State} {b : Bool} (hb : ¬b = true) (f : State → State) :
    s.whenTickDue b f = s := by
  rw [Bool.eq_false_iff.2 hb, State.whenTickDue_false]

/-- Settles O31. -/
theorem delayAndWidthRunOut : Obligations.DelayAndWidthRunOut := by
  intro i s x offered
  refine ⟨fun n => ?_, rfl, fun h => ⟨congrArg _ (State.whenTickDue_stopped h _ _),
    congrArg _ (State.whenTickDue_stopped h _ _)⟩,
    fun h => congrArg _ (State.whenTickDue_notDue (fun k => h ((s.delayDue_iff i).1 k)) _), fun hr hs ht => ?_,
    fun h => congrArg _ (State.whenTickDue_notDue (fun k => h ((s.widthDue_iff i).1 k)) _), fun hr hs ht => ?_⟩
  · intro o
    rw [State.reevaluate_get_eq, if_congr (s.assertedOn_iff_state n) rfl rfl]
  · intro y
    have h : s.delayOut i = s.assertSlot i := State.whenTickDue_due hr ((s.delayDue_iff i).2 ⟨hs, ht⟩) _
    refine congrArg Host.Outcome.next (h.trans ((s.assertSlot_eq i).trans ?_))
    rw [if_congr (s.blockedFor_iff .reflex (s.slots.get i).config.mask) rfl rfl]
    rfl
  · intro fired y
    have h : s.widthOut i = s.completePulse i .ended true s.tickStamp :=
      State.whenTickDue_due hr ((s.widthDue_iff i).2 ⟨hs, ht⟩) _
    refine congrArg Host.Outcome.next (h.trans ((s.completePulse_eq i .ended true s.tickStamp).trans ?_))
    simp only [Slot.complete_eq]
    rfl

/-! ### ARM, CLEAR and DISARM (R118 to R120) -/

theorem State.settled_eventStamp (s : State) : s.settled.eventStamp = s.eventStamp := by
  unfold State.eventStamp State.tickStamp
  rw [State.settled_tb]

/-- Settles O32. -/
theorem slotCommands : Obligations.SlotCommands := by
  intro i s hr u x offered released
  have ok {op : State → Except RefCode State} {t : State} (h : op s.settled = .ok t) :
      hostWrite 0x58 op s = .next t := hostWrite_ok hr h
  have no {op : State → Except RefCode State} {e : RefCode} (h : op s.settled = .error e) :
      hostWrite 0x58 op s = .next (s.settled.refuse e 0x58) := hostWrite_error hr h
  have hx : s.settled.slots.get i = x := by rw [State.settled_slots]
  have hrun (hm : s.mode = .run) : ¬s.settled.mode = .config := by rw [State.settled_mode, hm]; decide
  refine ⟨fun hm => no (op := armOp i) (if_pos (by rwa [State.settled_mode])),
    fun hm hs => no (op := armOp i) ((if_neg (hrun hm)).trans (if_neg (by rwa [hx]))),
    fun hm hs => ok (op := armOp i) (((if_neg (hrun hm)).trans (if_pos (by rwa [hx]))).trans ?_),
    fun hs => no (op := clearOp i) (if_neg (by rwa [hx])),
    fun hs => ?_, fun ha hh => ok (op := disarmOp i) ?_, fun ha => ok (op := disarmOp i) ?_⟩
  · rw [hx, State.setSlot, State.settled_slots]
  · intro fired y
    refine ok (op := clearOp i) ((if_pos (by rwa [hx])).trans ?_)
    rw [State.completePulse_eq, hx, State.settled_eventStamp, State.settled_slots, Slot.complete_eq]
    rfl
  · rw [disarmOp, State.disarmSlot_quiet (by rw [Bool.eq_false_iff, ne_eq, hx, Slot.asserting_iff]; tauto), hx,
      State.settled_slots]
  · rw [disarmOp, State.disarmSlot_asserting (by rwa [hx, Slot.asserting_iff]), hx, State.settled_eventStamp,
      State.settled_slots]
    rfl

end Sys2Proof.Machine
end

section
/-!
PROOFS. A passed change at all sixteen slots, and the halt of all of them. Settles O30, O12.
-/
namespace Sys2Proof.Machine
-- Declarations in order: a worker that waits for the kernel holds 1 GiB of the check's memory.
set_option Elab.async false

/-! ### Claims offered one behind another (R55) -/

/-- The claims with some more offered, in order. -/
def offerAll (offers cs : List Claim) : List Claim := offers.foldl (fun ds c => insertClaim c ds) cs

theorem mem_offerAll {offers cs : List Claim} {c : Claim} : c ∈ offerAll offers cs ↔ c ∈ cs ∨ c ∈ offers := by
  unfold offerAll
  induction offers generalizing cs with
  | nil => simp
  | cons d ds ih =>
    rw [List.foldl_cons, ih, mem_insertClaim, List.mem_cons]
    tauto

theorem offerAll_ordered {offers cs : List Claim} (h : cs.Pairwise fun c d => c.source.rank ≤ d.source.rank) :
    (offerAll offers cs).Pairwise fun c d => c.source.rank ≤ d.source.rank := by
  unfold offerAll
  induction offers generalizing cs with
  | nil => exact h
  | cons d ds ih => exact ih (insertClaim_ordered d h)

/-- Among claims in order a new one comes last of its source. -/
theorem insertClaim_filter_source {cs : List Claim} (h : cs.Pairwise fun c d => c.source.rank ≤ d.source.rank)
    (c : Claim) : ((insertClaim c cs).filter fun d => d.source == c.source) =
      (cs.filter fun d => d.source == c.source) ++ [c] := by
  induction cs with
  | nil => simp [insertClaim]
  | cons d ds ih =>
    obtain ⟨hd, hds⟩ := List.pairwise_cons.1 h
    rw [insertClaim]
    split
    · rw [List.filter_cons, List.filter_cons, ih hds]
      split <;> rfl
    · next hlt =>
      have hnone : ((d :: ds).filter fun x => x.source == c.source) = [] := by
        rw [List.filter_eq_nil_iff]
        intro x hx hs
        rw [beq_iff_eq] at hs
        rcases List.mem_cons.1 hx with rfl | hx
        · exact hlt (by rw [hs])
        · exact hlt (by rw [← hs]; exact hd x hx)
      rw [List.filter_cons, hnone, beq_self_eq_true, if_pos rfl, List.nil_append]

theorem offerAll_filter_source {src : ClaimSource} {offers cs : List Claim} (ho : ∀ c ∈ offers, c.source = src)
    (h : cs.Pairwise fun c d => c.source.rank ≤ d.source.rank) :
    ((offerAll offers cs).filter fun d => d.source == src) = (cs.filter fun d => d.source == src) ++ offers := by
  unfold offerAll
  induction offers generalizing cs with
  | nil => simp
  | cons c ds ih =>
    have hc : c.source = src := ho c List.mem_cons_self
    rw [List.foldl_cons, ih (fun d hd => ho d (List.mem_cons_of_mem _ hd)) (insertClaim_ordered c h), ← hc,
      insertClaim_filter_source h, List.append_assoc]
    rfl

theorem offerAll_filter_other {p : Claim → Bool} {offers : List Claim} (ho : ∀ c ∈ offers, p c = false)
    (cs : List Claim) : (offerAll offers cs).filter p = cs.filter p := by
  unfold offerAll
  induction offers generalizing cs with
  | nil => rfl
  | cons c ds ih =>
    rw [List.foldl_cons, ih (fun d hd => ho d (List.mem_cons_of_mem _ hd)),
      insertClaim_filter (ho c List.mem_cons_self)]

/-! ### One slot after another -/

/-- What is done at one slot: it becomes `y`, the claims `offers` are offered, the output lines follow where
it begins or ends an assertion (`acts`), and BLOCKED is set where `blocks`. -/
structure SlotStep (s t : State) (i : SlotNo) (y : Slot) (acts blocks : Prop) (offers : List Claim) : Prop where
  only : ReflexOnly s t
  slots : t.slots = s.slots.set i y
  claims : t.claims = offerAll offers s.claims
  follows : acts → t.outputs = ({ s with slots := s.slots.set i y } : State).reevaluate.outputs
  keeps : ¬acts → t.outputs = s.outputs ∧ y.drives = (s.slots.get i).drives
  flags : (blocks → t.errFlags = s.errFlags ||| 0x20) ∧ (¬blocks → t.errFlags = s.errFlags)

/-- What has been done at the slots of `done`, each from its state in `s`. -/
structure SlotSteps (s t : State) (y : SlotNo → Slot) (acts blocks : SlotNo → Prop)
    (offers : SlotNo → List Claim) (done : SlotNo → Prop) : Prop where
  only : ReflexOnly s t
  slot_done : ∀ i, done i → t.slots.get i = y i
  slot_open : ∀ i, ¬done i → t.slots.get i = s.slots.get i
  claims : ∀ c, c ∈ t.claims ↔ c ∈ s.claims ∨ ∃ i, done i ∧ c ∈ offers i
  ordered : ClaimsOrdered s → ClaimsOrdered t
  claims_done : ClaimsOrdered s → ∀ i, done i →
    (t.claims.filter fun c => c.source == .reflex i) = (s.claims.filter fun c => c.source == .reflex i) ++ offers i
  claims_open : ∀ i, ¬done i →
    (t.claims.filter fun c => c.source == .reflex i) = s.claims.filter fun c => c.source == .reflex i
  follows : ∀ m, (s.outputs.get m).owner = .reflex → (∃ i, done i ∧ acts i) →
    t.outputs.get m = { s.outputs.get m with
      claimed := if t.assertedOn m then !(s.outputs.get m).safe else (s.outputs.get m).safe }
  keeps : ∀ m, ¬((s.outputs.get m).owner = .reflex ∧ ∃ i, done i ∧ acts i) → t.outputs.get m = s.outputs.get m
  flag : ∀ k : Fin 7, k ≠ 5 → t.errFlags.getLsbD k.val = s.errFlags.getLsbD k.val
  blocked : t.errFlags.getLsbD 5 = true ↔ s.errFlags.getLsbD 5 = true ∨ ∃ i, done i ∧ blocks i

namespace SlotSteps
variable {s t u : State} {y : SlotNo → Slot} {acts blocks : SlotNo → Prop} {offers : SlotNo → List Claim}
  {done : SlotNo → Prop} {i : SlotNo}

theorem none (s : State) : SlotSteps s s y acts blocks offers fun _ => False where
  only := ReflexOnly.refl s
  slot_done := nofun
  slot_open := fun _ _ => rfl
  claims := by simp
  ordered := id
  claims_done := nofun
  claims_open := fun _ _ => rfl
  follows := fun _ _ h => nomatch h
  keeps := fun _ _ => rfl
  flag := fun _ _ => rfl
  blocked := by simp

/-- The owner and the safe value of a line stay. -/
theorem output_settings (h : SlotSteps s t y acts blocks offers done) (m : OutNo) :
    ∃ b, t.outputs.get m = { s.outputs.get m with claimed := b } := by
  by_cases hm : (s.outputs.get m).owner = .reflex ∧ ∃ i, done i ∧ acts i
  · exact ⟨_, h.follows m hm.1 hm.2⟩
  · exact ⟨(s.outputs.get m).claimed, h.keeps m hm⟩

theorem getLsbD_or_blocked (fl : BitVec 7) (k : Fin 7) :
    (fl ||| 0x20).getLsbD k.val = (fl.getLsbD k.val || decide (k = 5)) := by
  rw [BitVec.getLsbD_or]
  congr 1
  revert k
  decide

theorem step (h : SlotSteps s t y acts blocks offers done) (hi : ¬done i)
    (hsrc : ∀ c ∈ offers i, c.source = .reflex i) (hx : SlotStep t u i (y i) (acts i) (blocks i) (offers i)) :
    SlotSteps s u y acts blocks offers fun j => j = i ∨ done j where
  only := h.only.trans hx.only
  slot_done := by
    rintro j (rfl | hj)
    · rw [hx.slots, Bank.get_set_eq]
    · rw [hx.slots, Bank.get_set_ne _ (fun e : j = i => hi (e ▸ hj)), h.slot_done j hj]
  slot_open := fun j hj => by
    rw [hx.slots, Bank.get_set_ne _ (fun e => hj (.inl e)), h.slot_open j (fun k => hj (.inr k))]
  claims := fun c => by
    rw [hx.claims, mem_offerAll, h.claims]
    constructor
    · rintro ((hc | ⟨j, hj, hc⟩) | hc)
      · exact .inl hc
      · exact .inr ⟨j, .inr hj, hc⟩
      · exact .inr ⟨i, .inl rfl, hc⟩
    · rintro (hc | ⟨j, rfl | hj, hc⟩)
      · exact .inl (.inl hc)
      · exact .inr hc
      · exact .inl (.inr ⟨j, hj, hc⟩)
  ordered := fun ho => by
    unfold ClaimsOrdered
    rw [hx.claims]
    exact offerAll_ordered (h.ordered ho)
  claims_done := by
    rintro ho j (rfl | hj)
    · rw [hx.claims, offerAll_filter_source hsrc (h.ordered ho), h.claims_open j hi]
    · have hne : ∀ c ∈ offers i, (c.source == .reflex j) = false := fun c hc => by
        rw [hsrc c hc, beq_eq_false_iff_ne]
        rintro ⟨⟩
        exact hi hj
      rw [hx.claims, offerAll_filter_other hne, h.claims_done ho j hj]
  claims_open := fun j hj => by
    have hne : ∀ c ∈ offers i, (c.source == .reflex j) = false := fun c hc => by
      rw [hsrc c hc, beq_eq_false_iff_ne]
      rintro ⟨⟩
      exact hj (.inl rfl)
    rw [hx.claims, offerAll_filter_other hne, h.claims_open j (fun k => hj (.inr k))]
  follows := by
    rintro m hm ⟨j, hj, ha⟩
    by_cases hact : acts i
    · obtain ⟨b, hb⟩ := h.output_settings m
      have hon : ({ t with slots := t.slots.set i (y i) } : State).assertedOn m = u.assertedOn m :=
        State.assertedOn_of_drives (fun k => by rw [hx.slots]) m
      rw [hx.follows hact, State.reevaluate_get_eq, hon]
      simp only [hb, hm, if_true]
    · obtain ⟨hout, hdrives⟩ := hx.keeps hact
      have hon : u.assertedOn m = t.assertedOn m := State.assertedOn_of_drives (fun k => by
        rw [hx.slots, Bank.get_set]
        split
        · next hk => rw [hk, hdrives]
        · rfl) m
      have hdone : done j := hj.resolve_left fun e => hact (e ▸ ha)
      rw [hout, hon]
      exact h.follows m hm ⟨j, hdone, ha⟩
  keeps := fun m hm => by
    have hold : t.outputs.get m = s.outputs.get m :=
      h.keeps m fun ⟨ho, j, hj, ha⟩ => hm ⟨ho, j, .inr hj, ha⟩
    by_cases hact : acts i
    · have howner : ¬(t.outputs.get m).owner = .reflex := fun ho => hm ⟨by rwa [← hold], i, .inl rfl, hact⟩
      rw [hx.follows hact, State.reevaluate_get_eq, if_neg howner]
      exact hold
    · rw [(hx.keeps hact).1, hold]
  flag := fun k hk => by
    by_cases hb : blocks i
    · rw [hx.flags.1 hb, getLsbD_or_blocked, decide_eq_false hk, Bool.or_false, h.flag k hk]
    · rw [hx.flags.2 hb, h.flag k hk]
  blocked := by
    have hor : (t.errFlags ||| 0x20).getLsbD 5 = true := by
      have := getLsbD_or_blocked t.errFlags 5
      simp at this ⊢
    by_cases hb : blocks i
    · rw [hx.flags.1 hb]
      exact ⟨fun _ => .inr ⟨i, .inl rfl, hb⟩, fun _ => hor⟩
    · rw [hx.flags.2 hb, h.blocked]
      refine or_congr_right ⟨fun ⟨j, hj, k⟩ => ⟨j, .inr hj, k⟩, fun ⟨j, hj, k⟩ => ⟨j, ?_, k⟩⟩
      exact hj.resolve_left fun e => hb (e ▸ k)

/-- What is done at every slot. -/
theorem all {f : SlotNo → State → State} (hsrc : ∀ i, ∀ c ∈ offers i, c.source = .reflex i)
    (hf : ∀ i done t, SlotSteps s t y acts blocks offers done → ¬done i →
      SlotStep t (f i t) i (y i) (acts i) (blocks i) (offers i)) :
    SlotSteps s (forEach f s) y acts blocks offers fun _ => True := by
  have key : ∀ (is : List SlotNo) (done : SlotNo → Prop) (t : State), SlotSteps s t y acts blocks offers done →
      is.Nodup → (∀ i ∈ is, ¬done i) →
      SlotSteps s (is.foldl (fun t i => f i t) t) y acts blocks offers fun j => done j ∨ j ∈ is := by
    intro is
    induction is with
    | nil =>
      intro done t h _ _
      simpa using h
    | cons i is ih =>
      intro done t h hn hd
      obtain ⟨hni, hn'⟩ := List.nodup_cons.1 hn
      have hstep := h.step (hd i List.mem_cons_self) (hsrc i) (hf i done t h (hd i List.mem_cons_self))
      have hrest := ih _ _ hstep hn' (by
        rintro j hj (rfl | hdj)
        · exact hni hj
        · exact hd j (List.mem_cons_of_mem _ hj) hdj)
      have hiff : (fun j => (j = i ∨ done j) ∨ j ∈ is) = fun j => done j ∨ j ∈ i :: is := by
        funext j
        rw [List.mem_cons]
        exact propext (by tauto)
      rwa [hiff] at hrest
  have h := key (List.finRange 16) _ s (none s) (List.nodup_finRange 16) (fun _ _ => id)
  have htrue : (fun j : SlotNo => False ∨ j ∈ List.finRange 16) = fun _ => True := by
    funext j
    simp
  rwa [htrue] at h

end SlotSteps

/-! ### A trigger at one slot (R109, R110, R112 to R114) -/

/-- A trigger begins an assertion of the slot (R110, R113). -/
def Slot.begins (x : Slot) : Prop :=
  x.config.delay = 0 ∧ (x.state = .armed ∨ (x.state = .active ∧ x.config.policy = .restart))

/-- A trigger cuts the pulse of the slot short (R113). -/
def Slot.cut (x : Slot) : Prop := x.state = .active ∧ x.config.policy = .restart

/-- The records of a trigger, REFLEX_OFF first (R113). -/
def Slot.triggerClaims (x : Slot) (i : SlotNo) (v : Bool) (st : Stamp) : List Claim :=
  (if x.config.report = true ∧ x.state = .active ∧ x.config.policy = .restart then
    [⟨.reflex i, true, reflexOffRecord i x .retriggered st⟩] else []) ++
  (if x.config.report = true ∧ x.config.delay = 0 ∧
      (x.state = .armed ∨ (x.state = .active ∧ x.config.policy = .restart)) then
    [⟨.reflex i, true, reflexOnRecord i (x.marked v) st⟩] else [])

/-- A trigger covers a line that REFLEX does not own with a beginning assertion (R106). -/
def State.triggerBlocks (s : State) (x : Slot) : Prop :=
  x.begins ∧ ∃ m : OutNo, x.config.mask.getLsbD m.val = true ∧ (s.outputs.get m).owner ≠ .reflex

theorem reflexClaims_eq (i : SlotNo) (x : Slot) (b : Bool) (r : Record) (cs : List Claim) :
    reflexClaims i x b r cs = offerAll (if x.config.report = true then [⟨.reflex i, b, r⟩] else []) cs := by
  unfold reflexClaims
  split <;> rfl

/-- The beginning of an assertion is one step of its slot. -/
theorem slotStep_assert (s : State) (i : SlotNo) {acts blocks : Prop} (ha : acts)
    (hb : blocks ↔ ∃ m : OutNo, (s.slots.get i).config.mask.getLsbD m.val = true ∧ (s.outputs.get m).owner ≠ .reflex) :
    SlotStep s (s.assertSlot i) i (s.slots.get i).assert acts blocks
      (if (s.slots.get i).config.report = true then
        [⟨.reflex i, true, reflexOnRecord i (s.slots.get i) s.tickStamp⟩] else []) where
  only := reflexOnly_assertSlot s i
  slots := s.assertSlot_slots i
  claims := by rw [State.assertSlot_eq, reflexClaims_eq]
  follows := fun _ => by rw [State.assertSlot_eq]
  keeps := fun h => absurd ha h
  flags := by
    rw [State.assertSlot_eq]
    exact ⟨fun h => if_pos ((s.blockedFor_iff _ _).2 (hb.1 h)), fun h => if_neg (fun k => h (hb.2 ((s.blockedFor_iff _ _).1 k)))⟩

/-- A step that leaves the output lines. -/
theorem slotStep_set (s : State) (i : SlotNo) {y : Slot} (hy : y.drives = (s.slots.get i).drives) {acts blocks : Prop}
    (ha : ¬acts) (hb : ¬blocks) : SlotStep s (s.setSlot i y) i y acts blocks [] where
  only := ⟨_, s.outputs, s.claims, s.errFlags, rfl⟩
  slots := rfl
  claims := rfl
  follows := fun h => absurd h ha
  keeps := fun _ => ⟨rfl, hy⟩
  flags := ⟨fun h => absurd h hb, fun _ => rfl⟩

/-- A step that does nothing. -/
theorem slotStep_same (s : State) (i : SlotNo) {y : Slot} (hy : y = s.slots.get i) {acts blocks : Prop}
    (ha : ¬acts) (hb : ¬blocks) : SlotStep s s i y acts blocks [] := by
  have h := slotStep_set s i (y := y) (by rw [hy]) ha hb
  have hs : s.setSlot i y = s := by rw [hy, State.setSlot, Bank.set_get]
  rwa [hs] at h

/-- A re-evaluation ends the step of a slot that is set. -/
theorem slotStep_reevaluate (s : State) (i : SlotNo) (y : Slot) {acts blocks : Prop} (ha : acts) (hb : ¬blocks) :
    SlotStep s (s.setSlot i y).reevaluate i y acts blocks [] where
  only := ⟨_, _, s.claims, s.errFlags, rfl⟩
  slots := rfl
  claims := rfl
  follows := fun _ => rfl
  keeps := fun h => absurd ha h
  flags := ⟨fun h => absurd h hb, fun _ => rfl⟩

theorem slotStep_report {s : State} {i : SlotNo} {x : Slot} (hx : (s.slots.get i).config = x.config) (b : Bool)
    (r : Record) : SlotStep s (s.reportReflex i b r) i (s.slots.get i) False False
      (if x.config.report = true then [⟨.reflex i, b, r⟩] else []) := by
  rw [State.reportReflex_eq, reflexClaims_of_config hx]
  exact {
    only := ⟨s.slots, s.outputs, _, s.errFlags, rfl⟩
    slots := (Bank.set_get _ _).symm
    claims := reflexClaims_eq i x b r s.claims
    follows := nofun
    keeps := fun _ => ⟨rfl, rfl⟩
    flags := ⟨nofun, fun _ => rfl⟩ }

/-- Two steps of one slot, the first of which leaves the output lines. -/
theorem SlotStep.andThen {s w t : State} {i : SlotNo} {y z : Slot} {acts blocks : Prop} {a b : List Claim}
    (h : SlotStep s w i y False False a) (k : SlotStep w t i z acts blocks b) :
    SlotStep s t i z acts blocks (a ++ b) := by
  obtain ⟨hout, hdrives⟩ := h.keeps id
  have hset : w.slots.set i z = s.slots.set i z := by rw [h.slots, Bank.set_set]
  exact {
    only := h.only.trans k.only
    slots := k.slots.trans hset
    claims := by rw [k.claims, h.claims, offerAll, offerAll, offerAll, List.foldl_append]
    follows := fun ha => by
      rw [k.follows ha, hset]
      unfold State.reevaluate
      rw [hout]
      rfl
    keeps := fun ha => by
      obtain ⟨hout', hdrives'⟩ := k.keeps ha
      rw [h.slots, Bank.get_set_eq] at hdrives'
      exact ⟨hout'.trans hout, hdrives'.trans hdrives⟩
    flags := by rw [← h.flags.2 id]; exact k.flags }

theorem Slot.begins_started {x : Slot} (h : x.config.delay = 0) (v : Bool) : x.started v = (x.marked v).assert :=
  if_pos h

/-- The slot marked with its edge. -/
theorem slotStep_mark (s : State) (i : SlotNo) (v : Bool) :
    SlotStep s (s.setSlot i ((s.slots.get i).marked v)) i ((s.slots.get i).marked v) False False [] :=
  slotStep_set s i (Slot.drives_of_state (x := s.slots.get i) (y := (s.slots.get i).marked v) rfl rfl) id id

/-- An assertion that a trigger begins. -/
theorem slotStep_begin {s w : State} {i : SlotNo} {x : Slot} {v : Bool} {offers : List Claim}
    (hw : SlotStep s w i (x.marked v) False False offers) (hd : x.config.delay = 0) (hb : x.begins) {acts : Prop}
    (ha : acts) : SlotStep s (w.assertSlot i) i (x.started v) acts (s.triggerBlocks x)
      (offers ++ if x.config.report = true then [⟨.reflex i, true, reflexOnRecord i (x.marked v) s.tickStamp⟩] else []) := by
  have hx : w.slots.get i = x.marked v := by rw [hw.slots, Bank.get_set_eq]
  have hst : w.tickStamp = s.tickStamp := State.tickStamp_of_tb hw.only.input.tb
  have h := slotStep_assert w i (acts := acts) (blocks := s.triggerBlocks x) ha
    (by rw [hx, (hw.keeps id).1]; exact and_iff_right hb)
  rw [hx, hst] at h
  rw [Slot.begins_started hd]
  exact hw.andThen h

/-- The part with the pulse of a slot cut short and reported (R113). -/
def State.cutShort (s : State) (i : SlotNo) (v : Bool) : State :=
  (s.setSlot i ((s.slots.get i).marked v)).reportReflex i true
    (reflexOffRecord i (s.slots.get i) .retriggered s.tickStamp)

theorem State.restartPulse_eq (s : State) (i : SlotNo) (v : Bool) : s.restartPulse i v =
    if (s.slots.get i).config.delay = 0 then (s.cutShort i v).assertSlot i
    else ((s.cutShort i v).setSlot i ((s.cutShort i v).slots.get i).startDelay).reevaluate := rfl

theorem slotStep_cutShort (s : State) (i : SlotNo) (v : Bool) :
    SlotStep s (s.cutShort i v) i ((s.slots.get i).marked v) False False
      (if (s.slots.get i).config.report = true then
        [⟨.reflex i, true, reflexOffRecord i (s.slots.get i) .retriggered s.tickStamp⟩] else []) := by
  have h := (slotStep_mark s i v).andThen (slotStep_report (s := s.setSlot i ((s.slots.get i).marked v)) (i := i)
    (x := s.slots.get i) (by rw [State.setSlot_slots, Bank.get_set_eq]; rfl) true
    (reflexOffRecord i (s.slots.get i) .retriggered s.tickStamp))
  rwa [State.setSlot_slots, Bank.get_set_eq, List.nil_append] at h

/-- The slot of a pulse that is cut short (R113). -/
theorem slotStep_restart (s : State) (i : SlotNo) (v : Bool) (hc : (s.slots.get i).cut) :
    SlotStep s (s.restartPulse i v) i ((s.slots.get i).started v) ((s.slots.get i).begins ∨ (s.slots.get i).cut)
      (s.triggerBlocks (s.slots.get i)) ((s.slots.get i).triggerClaims i v s.tickStamp) := by
  obtain ⟨hs, hp⟩ := hc
  have hoff := slotStep_cutShort s i v
  have hclaims : (s.slots.get i).triggerClaims i v s.tickStamp =
      (if (s.slots.get i).config.report = true then
        [⟨.reflex i, true, reflexOffRecord i (s.slots.get i) .retriggered s.tickStamp⟩] else []) ++
      (if (s.slots.get i).config.report = true ∧ (s.slots.get i).config.delay = 0 then
        [⟨.reflex i, true, reflexOnRecord i ((s.slots.get i).marked v) s.tickStamp⟩] else []) := by
    simp [Slot.triggerClaims, hs, hp]
  rw [hclaims, State.restartPulse_eq]
  by_cases hd : (s.slots.get i).config.delay = 0
  · have h := slotStep_begin hoff hd ⟨hd, .inr ⟨hs, hp⟩⟩ (acts := (s.slots.get i).begins ∨ (s.slots.get i).cut)
      (.inr ⟨hs, hp⟩)
    rw [if_pos hd]
    simpa only [hd, and_true] using h
  · have hslot : (s.cutShort i v).slots.get i = (s.slots.get i).marked v := by rw [hoff.slots, Bank.get_set_eq]
    have h := hoff.andThen (slotStep_reevaluate _ i ((s.slots.get i).marked v).startDelay
      (acts := (s.slots.get i).begins ∨ (s.slots.get i).cut) (blocks := s.triggerBlocks (s.slots.get i))
      (.inr ⟨hs, hp⟩) (fun k => hd k.1.1))
    rw [if_neg hd, hslot, if_neg (fun k : (s.slots.get i).config.report = true ∧ (s.slots.get i).config.delay = 0 => hd k.2),
      Slot.started, if_neg hd]
    exact h

/-- What a trigger does to its slot. -/
theorem slotStep_trigger (s : State) (i : SlotNo) (v : Bool) :
    SlotStep s (s.triggerSlot i v) i ((s.slots.get i).triggered v) ((s.slots.get i).begins ∨ (s.slots.get i).cut)
      (s.triggerBlocks (s.slots.get i)) ((s.slots.get i).triggerClaims i v s.tickStamp) := by
  cases hs : (s.slots.get i).state with
  | disarmed =>
    have hc : (s.slots.get i).triggerClaims i v s.tickStamp = [] := by simp [Slot.triggerClaims, hs]
    rw [State.triggerSlot_disarmed hs, hc]
    exact slotStep_same s i (by simp only [Slot.triggered, hs]) (by simp [Slot.begins, Slot.cut, hs])
      (by simp [State.triggerBlocks, Slot.begins, hs])
  | holding =>
    have hc : (s.slots.get i).triggerClaims i v s.tickStamp = [] := by simp [Slot.triggerClaims, hs]
    rw [State.triggerSlot_holding hs, hc]
    exact slotStep_same s i (by simp only [Slot.triggered, hs]) (by simp [Slot.begins, Slot.cut, hs])
      (by simp [State.triggerBlocks, Slot.begins, hs])
  | armed =>
    have ht : (s.slots.get i).triggered v = (s.slots.get i).started v := by simp only [Slot.triggered, hs]
    rw [State.triggerSlot_armed hs, ht]
    by_cases hd : (s.slots.get i).config.delay = 0
    · have hc : (s.slots.get i).triggerClaims i v s.tickStamp = [] ++ if (s.slots.get i).config.report = true then
          [⟨.reflex i, true, reflexOnRecord i ((s.slots.get i).marked v) s.tickStamp⟩] else [] := by
        simp [Slot.triggerClaims, hs, hd]
      rw [if_pos hd, hc]
      exact slotStep_begin (slotStep_mark s i v) hd ⟨hd, .inl hs⟩ (.inl ⟨hd, .inl hs⟩)
    · have hd' : ¬(s.slots.get i).config.delay = 0#24 := hd
      have hc : (s.slots.get i).triggerClaims i v s.tickStamp = [] := by simp [Slot.triggerClaims, hs, hd']
      rw [if_neg hd, hc, Slot.started, if_neg hd]
      exact slotStep_set s i (by rw [Slot.drives_none (x := s.slots.get i) (by simp [hs])]; rfl)
        (by simp [Slot.begins, Slot.cut, hs, hd']) (by simp [State.triggerBlocks, Slot.begins, hd'])
  | delaying =>
    have hc : (s.slots.get i).triggerClaims i v s.tickStamp = [] := by simp [Slot.triggerClaims, hs]
    have ha : ¬((s.slots.get i).begins ∨ (s.slots.get i).cut) := by simp [Slot.begins, Slot.cut, hs]
    have hb : ¬s.triggerBlocks (s.slots.get i) := by simp [State.triggerBlocks, Slot.begins, hs]
    rw [State.triggerSlot_delaying hs, hc]
    by_cases hp : (s.slots.get i).config.policy = .restart
    · have ht : (s.slots.get i).triggered v = ((s.slots.get i).marked v).startDelay := by
        simp only [Slot.triggered, hs, hp]
      rw [if_pos hp, ht]
      exact slotStep_set s i (by rw [Slot.drives_none (x := s.slots.get i) (by simp [hs])]; rfl) ha hb
    · have ht : (s.slots.get i).triggered v = s.slots.get i := by
        cases hq : (s.slots.get i).config.policy with
        | restart => exact absurd hq hp
        | ignore => simp only [Slot.triggered, hs, hq]
        | extend => simp only [Slot.triggered, hs, hq]
      rw [if_neg hp]
      exact slotStep_same s i ht ha hb
  | active =>
    rw [State.triggerSlot_active hs]
    cases hp : (s.slots.get i).config.policy with
    | restart =>
      have ht : (s.slots.get i).triggered v = (s.slots.get i).started v := by simp only [Slot.triggered, hs, hp]
      rw [if_pos rfl, ht]
      exact slotStep_restart s i v ⟨hs, hp⟩
    | ignore =>
      have hc : (s.slots.get i).triggerClaims i v s.tickStamp = [] := by simp [Slot.triggerClaims, hs, hp]
      rw [if_neg (by decide), if_neg (by decide), hc]
      exact slotStep_same s i (by simp only [Slot.triggered, hs, hp]) (by simp [Slot.begins, Slot.cut, hs, hp])
        (by simp [State.triggerBlocks, Slot.begins, hs, hp])
    | extend =>
      have hc : (s.slots.get i).triggerClaims i v s.tickStamp = [] := by simp [Slot.triggerClaims, hs, hp]
      have ht : (s.slots.get i).triggered v = { s.slots.get i with timer := timerFor (s.slots.get i).config.width } := by
        simp only [Slot.triggered, hs, hp]
      rw [if_neg (by decide), if_pos rfl, hc, ht]
      exact slotStep_set s i (Slot.drives_of_state (x := s.slots.get i)
        (y := { s.slots.get i with timer := timerFor (s.slots.get i).config.width }) rfl rfl) (by simp [Slot.begins, Slot.cut, hs, hp])
        (by simp [State.triggerBlocks, Slot.begins, hs, hp])

/-! ### The passed change (R107, R108) -/

theorem TriggerEdge.accepts_iff (e : TriggerEdge) (v : Bool) : e.accepts v = true ↔
    e = .either ∨ (e = .rise ∧ v = true) ∨ (e = .fall ∧ v = false) := by
  cases e <;> simp [TriggerEdge.accepts]

theorem Slot.triggeredBy_iff (x : Slot) (n : LineNo) (v : Bool) (levels : LineNo → Bool) :
    x.triggeredBy n v levels = true ↔ x.config.trigger = n ∧
      (x.config.edge = .either ∨ (x.config.edge = .rise ∧ v = true) ∨ (x.config.edge = .fall ∧ v = false)) ∧
      ∀ g, x.config.gate = some g → levels g.line = g.level := by
  rw [← TriggerEdge.accepts_iff, Slot.triggeredBy]
  cases x.config.gate with
  | none => simp
  | some g => simp [and_assoc]

section Pass
variable (n : LineNo) (v : Bool) (levels : LineNo → Bool)

/-- The slot after a passed change: a trigger for it or not (R107). -/
def Slot.passed (x : Slot) : Slot := if x.triggeredBy n v levels = true then x.triggered v else x

/-- The records a passed change makes at a slot. -/
def Slot.passedClaims (x : Slot) (i : SlotNo) (st : Stamp) : List Claim :=
  if x.triggeredBy n v levels = true then x.triggerClaims i v st else []

theorem slotSteps_passChange (s : State) :
    SlotSteps s (s.passChange n v levels) (fun i => (s.slots.get i).passed n v levels)
      (fun i => (s.slots.get i).triggeredBy n v levels = true ∧ ((s.slots.get i).begins ∨ (s.slots.get i).cut))
      (fun i => (s.slots.get i).triggeredBy n v levels = true ∧ s.triggerBlocks (s.slots.get i))
      (fun i => (s.slots.get i).passedClaims n v levels i s.tickStamp) (fun _ => True) := by
  refine SlotSteps.all (fun i c hc => ?_) (fun i done t h hi => ?_)
  · unfold Slot.passedClaims Slot.triggerClaims at hc
    split at hc
    · rcases List.mem_append.1 hc with hc | hc <;> split at hc <;> simp at hc <;> rw [hc]
    · cases hc
  · have hx := h.slot_open i hi
    have hst : t.tickStamp = s.tickStamp := State.tickStamp_of_tb h.only.input.tb
    have howner (m : OutNo) : (t.outputs.get m).owner = (s.outputs.get m).owner := by
      obtain ⟨b, hb⟩ := h.output_settings m
      rw [hb]
    have hblocks : t.triggerBlocks (s.slots.get i) = s.triggerBlocks (s.slots.get i) := by
      simp only [State.triggerBlocks, howner]
    have hstep := slotStep_trigger t i v
    rw [hx, hst, hblocks] at hstep
    simp only [hx, Slot.passed, Slot.passedClaims]
    by_cases ht : (s.slots.get i).triggeredBy n v levels = true
    · simpa only [ht, if_true, true_and] using hstep
    · simp only [ht, Bool.false_eq_true, if_false, false_and]
      exact slotStep_same t i hx.symm id id

end Pass

/-- What a trigger makes of its slot, state by state (R109, R112 to R114). -/
theorem Slot.triggered_of_state (x : Slot) (v : Bool) :
    (x.state = .disarmed ∨ x.state = .holding → x.triggered v = x) ∧
    (x.state = .armed → x.triggered v = x.started v) ∧
    (x.state = .delaying → x.triggered v = if x.config.policy = .restart then (x.marked v).startDelay else x) ∧
    (x.state = .active → x.triggered v = if x.config.policy = .ignore then x
      else if x.config.policy = .extend then { x with timer := timerFor x.config.width } else x.started v) := by
  refine ⟨?_, fun h => ?_, fun h => ?_, fun h => ?_⟩
  · rintro (h | h) <;> simp only [Slot.triggered, h]
  · simp only [Slot.triggered, h]
  · cases hp : x.config.policy <;> simp only [Slot.triggered, h, hp] <;> rfl
  · cases hp : x.config.policy <;> simp only [Slot.triggered, h, hp] <;> rfl

theorem Slot.mem_passedClaims (x : Slot) (n : LineNo) (v : Bool) (levels : LineNo → Bool) (i : SlotNo) (st : Stamp)
    (c : Claim) : c ∈ x.passedClaims n v levels i st ↔ x.triggeredBy n v levels = true ∧ x.config.report = true ∧
      ((x.cut ∧ c = ⟨.reflex i, true, reflexOffRecord i x .retriggered st⟩) ∨
        (x.begins ∧ c = ⟨.reflex i, true, reflexOnRecord i (x.marked v) st⟩)) := by
  have hif (p : Prop) [Decidable p] (d : Claim) : c ∈ (if p then [d] else []) ↔ p ∧ c = d := by
    split <;> simp [*]
  unfold Slot.passedClaims Slot.triggerClaims
  split
  · next h =>
    rw [List.mem_append, hif, hif]
    simp only [h, Slot.cut, Slot.begins]
    tauto
  · next h =>
    simp only [h, Bool.false_eq_true, List.not_mem_nil, false_and]

/-- Settles O30. -/
theorem passedChangeReachesTheSlots : Obligations.PassedChangeReachesTheSlots := by
  intro s n v levels t trigger delayed asserted begins cut
  have h := slotSteps_passChange n v levels s
  have htrig (x : Slot) : x.triggeredBy n v levels = true ↔ trigger x := x.triggeredBy_iff n v levels
  have hbegins (x : Slot) : x.triggeredBy n v levels = true ∧ x.begins ↔ begins x := by rw [htrig]; rfl
  have hcut (x : Slot) : x.triggeredBy n v levels = true ∧ x.cut ↔ cut x := by rw [htrig]; rfl
  have hacts : (∃ i, True ∧ (s.slots.get i).triggeredBy n v levels = true ∧
      ((s.slots.get i).begins ∨ (s.slots.get i).cut)) ↔ ∃ i, begins (s.slots.get i) ∨ cut (s.slots.get i) := by
    simp only [← hbegins, ← hcut, true_and, and_or_left]
  refine ⟨fun i => ⟨fun hn => ?_, fun ht => ?_⟩, fun c => ?_, fun ho i => ?_, fun m => ?_, ?_, h.flag, ?_⟩
  · exact (h.slot_done i trivial).trans (if_neg (fun k => hn ((htrig _).1 k)))
  · refine (h.slot_done i trivial).trans ((if_pos ((htrig _).2 ht)).trans ?_)
    obtain ⟨hkept, harmed, hdelaying, hactive⟩ := (s.slots.get i).triggered_of_state v
    cases hs : (s.slots.get i).state with
    | disarmed => exact hkept (.inl hs)
    | armed => exact harmed hs
    | delaying => exact hdelaying hs
    | active =>
      refine (hactive hs).trans ?_
      cases (s.slots.get i).config.policy with
      | ignore => rfl
      | restart => rfl
      | extend => exact congrArg (fun st =>
          { s.slots.get i with state := st, timer := timerFor (s.slots.get i).config.width }) hs
    | holding => exact hkept (.inr hs)
  · rw [h.claims c]
    refine or_congr_right (exists_congr fun i => ?_)
    rw [true_and, Slot.mem_passedClaims]
    simp only [← hbegins, ← hcut]
    constructor
    · rintro ⟨ht, hr, (⟨hc, e⟩ | ⟨hc, e⟩)⟩
      · exact ⟨hr, .inl ⟨⟨ht, hc⟩, e⟩⟩
      · exact ⟨hr, .inr ⟨⟨ht, hc⟩, e⟩⟩
    · rintro ⟨hr, (⟨⟨ht, hc⟩, e⟩ | ⟨⟨ht, hc⟩, e⟩)⟩
      · exact ⟨ht, hr, .inl ⟨hc, e⟩⟩
      · exact ⟨ht, hr, .inr ⟨hc, e⟩⟩
  · intro x hrep hc hd
    obtain ⟨ht, hs, hp⟩ := (hcut _).2 hc
    rw [h.claims_done ho i trivial, Slot.passedClaims, if_pos ht, Slot.triggerClaims, if_pos ⟨hrep, hs, hp⟩,
      if_pos ⟨hrep, hd, .inr ⟨hs, hp⟩⟩]
    rfl
  · intro o
    by_cases hm : o.owner = .reflex ∧ ∃ i, begins (s.slots.get i) ∨ cut (s.slots.get i)
    · rw [if_pos hm, h.follows m hm.1 (hacts.2 hm.2), if_congr (State.assertedOn_iff_state _ m) rfl rfl]
    · rw [if_neg hm, h.keeps m (fun k => hm ⟨k.1, hacts.1 k.2⟩)]
  · obtain ⟨xs, os, cl, fl, e⟩ := h.only
    have ht : t = { s with slots := xs, outputs := os, claims := cl, errFlags := fl } := e
    rw [ht]
  · rw [h.blocked]
    refine or_congr_right (exists_congr fun i => ?_)
    rw [true_and, State.triggerBlocks, ← and_assoc, hbegins]
    exact ⟨fun ⟨hb, m, hm⟩ => ⟨m, hb, hm⟩, fun ⟨m, hb, hm⟩ => ⟨hb, m, hm⟩⟩

end Sys2Proof.Machine
end

section
/-!
PROOFS. RUN and HALT. Settles O12.
-/
namespace Sys2Proof.Machine
-- Declarations in order: a worker that waits for the kernel holds 1 GiB of the check's memory.
set_option Elab.async false

/-! ### The slots at a halt (R125) -/

/-- The record a slot makes where it is disarmed while it asserts (R120, R125). -/
def Slot.disarmClaims (x : Slot) (i : SlotNo) (c : EndCause) (st : Stamp) : List Claim :=
  if x.asserting = true ∧ x.config.report = true then [⟨.reflex i, false, reflexOffRecord i x c st⟩] else []

theorem slotStep_disarm (s : State) (i : SlotNo) (c : EndCause) :
    SlotStep s (s.disarmSlot i c) i { s.slots.get i with state := .disarmed, timer := none }
      ((s.slots.get i).asserting = true) False ((s.slots.get i).disarmClaims i c s.eventStamp) := by
  by_cases h : (s.slots.get i).asserting = true
  · exact {
      only := reflexOnly_disarmSlot s i c
      slots := s.disarmSlot_slots i c
      claims := by rw [State.disarmSlot_asserting h, reflexClaims_eq, Slot.disarmClaims]; simp only [h, true_and]
      follows := fun _ => by rw [State.disarmSlot_asserting h]
      keeps := fun k => absurd h k
      flags := ⟨nofun, fun _ => by rw [State.disarmSlot_asserting h]; rfl⟩ }
  · have hclaims : (s.slots.get i).disarmClaims i c s.eventStamp = [] := if_neg fun k => h k.1
    have hdrives : (s.slots.get i).drives = none := if_neg h
    rw [State.disarmSlot_quiet (Bool.eq_false_iff.2 h), hclaims]
    exact slotStep_set s i (by rw [hdrives]; rfl) h id

theorem slotSteps_halt (s : State) :
    SlotSteps s (forEach (fun i t => t.disarmSlot i .halted) s)
      (fun i => { s.slots.get i with state := .disarmed, timer := none })
      (fun i => (s.slots.get i).asserting = true) (fun _ => False)
      (fun i => (s.slots.get i).disarmClaims i .halted s.eventStamp) (fun _ => True) := by
  refine SlotSteps.all (fun i c hc => ?_) (fun i done t h hi => ?_)
  · unfold Slot.disarmClaims at hc
    split at hc
    · rw [List.mem_singleton.1 hc]
    · cases hc
  · have hst : t.eventStamp = s.eventStamp := by
      unfold State.eventStamp State.tickStamp
      rw [h.only.input.tb]
    have hstep := slotStep_disarm t i .halted
    rwa [h.slot_open i hi, hst] at hstep

/-! ### RUN and HALT (R171, R172) -/

/-- Where nothing of the tick before is left to take at the lines and the slots, the capture does nothing. -/
theorem finishCapture_idle {s : State} (hl : ∀ n, (s.lines.get n).qualifies = false ∧ s.releaseDue n = false)
    (hs : ∀ i, s.delayDue i = false ∧ s.widthDue i = false) : s.finishCapture = s := by
  have hq : forEach (fun n t => t.qualify n) s = s := forEach_id fun n => State.qualify_waits (.inr (hl n).1)
  have hr : forEach (fun n t => t.releaseIfDue n) s = s :=
    forEach_id fun n => State.whenTickDue_notDue (Bool.eq_false_iff.1 (hl n).2) _
  have hd : forEach (fun i t => t.delayOut i) s = s :=
    forEach_id fun i => State.whenTickDue_notDue (Bool.eq_false_iff.1 (hs i).1) _
  have hw : forEach (fun i t => t.widthOut i) s = s :=
    forEach_id fun i => State.whenTickDue_notDue (Bool.eq_false_iff.1 (hs i).2) _
  simp only [State.finishCapture, hq, hr, hd, hw]

theorem Line.onHalt_eq (l : Line) : l.onHalt = if l.state = .live ∨ l.state = .suppressed then l.quieted .idle else l :=
  if_congr l.sampled_iff rfl rfl

/-- Settles O12. -/
theorem runAndHalt : Obligations.RunAndHalt := by
  intro s hr
  have ok {op : State → Except RefCode State} {t : State} (h : op s.settled = .ok t) :
      hostWrite 0x01 op s = .next t := hostWrite_ok hr h
  have no {op : State → Except RefCode State} {e : RefCode} (h : op s.settled = .error e) :
      hostWrite 0x01 op s = .next (s.settled.refuse e 0x01) := hostWrite_error hr h
  have hst (h : s.tb.state ≠ .stopped) : ¬s.settled.tb.state = .stopped := by rwa [State.settled_tb]
  refine ⟨fun h => no (op := runOp) (if_pos (by rwa [State.settled_tb])),
    fun h hm => ok (op := runOp) ((if_neg (hst h)).trans (if_pos (by rwa [State.settled_mode]))),
    fun h hm => ⟨s.settled.lines.map Line.onRun, ok (op := runOp) ((if_neg (hst h)).trans (if_neg ?_)), fun n => ?_⟩,
    fun hm => ok (op := haltOp) (if_pos (by rwa [State.settled_mode])), ?_, ?_⟩
  · rw [State.settled_mode, hm]
    decide
  · rw [Bank.get_map, State.settled_lines]
    rfl
  · rw [s.readAddr_eq 0x01 .mode rfl hr]
    simp only [State.readRegister, State.settled_mode]
    cases s.mode <;> rfl
  intro u
  have hu : u = s.settled.finishCapture := s.settled.runCommands_capture
  refine ⟨fun hl hs => hu.trans (finishCapture_idle (fun n => ?_) (fun i => ?_)), fun hm => ?_⟩
  · rw [State.releaseDue_congr s.settled_lines, State.settled_lines]
    exact hl n
  · rw [State.delayDue_congr s.settled_slots, State.widthDue_congr s.settled_slots]
    exact hs i
  have hhalt : haltOp s.settled = .ok s.settled.finishCapture.halt :=
    if_neg (by rw [State.settled_mode, hm]; decide)
  have hev : u.eventStamp = s.eventStamp := by
    unfold State.eventStamp State.tickStamp
    rw [hu, State.finishCapture_tb, State.settled_tb]
  have hordered : ClaimsOrdered s → ClaimsOrdered u := fun ho => by
    rw [hu]
    exact Moves.keeps (fun _ _ h k => ClaimsOrdered.move h k)
      ((moves_settled (more := False) s).trans (moves_finishCapture _)) ho
  rw [← hu] at hhalt
  clear_value u
  have h : SlotSteps { u with mode := .config, lines := u.lines.map Line.onHalt } u.halt _ _ _ _ _ := slotSteps_halt _
  have hev' : State.eventStamp { u with mode := .config, lines := u.lines.map Line.onHalt } = u.eventStamp := rfl
  rw [hev', hev] at h
  have hflags : u.halt.errFlags = u.errFlags := by
    refine BitVec.eq_of_getLsbD_eq fun k hk => ?_
    by_cases h5 : k = 5
    · have hb : u.halt.errFlags.getLsbD 5 = true ↔ u.errFlags.getLsbD 5 = true := by
        simpa using h.blocked
      rw [h5]
      exact Bool.eq_iff_iff.2 hb
    · exact h.flag ⟨k, hk⟩ (fun e => h5 (congrArg Fin.val e))
  obtain ⟨xs, os, cl, fl, e⟩ := reflexOnly_halt u
  have hx : u.halt.slots = xs := by rw [e]
  have ho : u.halt.outputs = os := by rw [e]
  have hc : u.halt.claims = cl := by rw [e]
  have hf : fl = u.errFlags := by rw [← hflags, e]
  refine ⟨u.lines.map Line.onHalt, xs, os, cl, ok (op := haltOp) (hhalt.trans ?_), fun n => ?_, fun i => ?_,
    fun c => ?_, fun hso => ?_, fun n => ?_⟩
  · rw [e, hf]
  · rw [Bank.get_map, Line.onHalt_eq]
    rfl
  · rw [← hx]
    exact h.slot_done i trivial
  · rw [← hc]
    refine (h.claims c).trans (or_congr_right (exists_congr fun i => ?_))
    rw [true_and, Slot.disarmClaims]
    split
    · next hi => simp [hi]
    · next hi => simp only [List.not_mem_nil, false_iff]; exact fun k => hi ⟨k.1, k.2.1⟩
  · rw [← hc]
    exact h.ordered (hordered hso)
  · have hon : u.halt.assertedOn n = false := by
      rw [Bool.eq_false_iff, ne_eq, State.assertedOn_iff_state]
      rintro ⟨i, hi, -⟩
      have hd : u.halt.slots.get i = _ := h.slot_done i trivial
      rw [hd] at hi
      simp at hi
    rw [← ho]
    by_cases hn : (u.outputs.get n).owner = .reflex ∧ ∃ i, (u.slots.get i).asserting = true
    · rw [if_pos hn]
      have hfollows : u.halt.outputs.get n = { u.outputs.get n with
          claimed := if u.halt.assertedOn n then !(u.outputs.get n).safe else (u.outputs.get n).safe } :=
        h.follows n hn.1 (hn.2.imp fun i hi => ⟨trivial, hi⟩)
      rw [hfollows, hon]
      rfl
    · rw [if_neg hn]
      exact h.keeps n fun ⟨ho, i, _, hi⟩ => hn ⟨ho, i, hi⟩

end Sys2Proof.Machine
end

section
/-!
PROOFS. The taking of a claim: admission and overflow. Settles O35, O36.
-/
namespace Sys2Proof.Machine
-- Declarations in order: a worker that waits for the kernel holds 1 GiB of the check's memory.
set_option Elab.async false

/-! ### Admission (R54, R56, R68, R70) -/

theorem State.takeClaim_cons {s : State} {c : Claim} {cs : List Claim} (h : s.claims = c :: cs) :
    s.takeClaim = State.takeRecord { s with claims := cs } c.source.queue c.record := by
  unfold State.takeClaim
  rw [h]

theorem State.admissible_iff (s : State) (g : GroupNo) : s.admissible g = true ↔
    (s.queues.get g).records.length < (s.queues.get g).quota.limit.toNat ∧
      ((s.queues.get g).records.length < (s.queues.get g).quota.reserve.toNat ∨ s.unusedByOthers g < s.freeSlots) := by
  simp only [State.admissible, Bool.and_eq_true, Bool.or_eq_true, decide_eq_true_eq]
  exact Iff.rfl

theorem State.enterRecord_waits {s : State} {g : GroupNo} (r : Record)
    (h : (s.queues.get g).records ≠ [] ∨ (s.groups.get g).deliver = false) :
    s.enterRecord g r = s.setQueue g ((s.queues.get g).enter (s.groups.get g).presented.isSome r) := by
  refine if_neg ?_
  rcases h with h | h
  · simp [List.isEmpty_eq_false_iff.2 h]
  · simp [h]

theorem State.enterRecord_shows {s : State} {g : GroupNo} (r : Record)
    (hr : (s.queues.get g).records = []) (hd : (s.groups.get g).deliver = true) :
    s.enterRecord g r = { s with
      queues := s.queues.set g (((s.queues.get g).enter (s.groups.get g).presented.isSome r).shown (s.groups.get g))
      groups := s.groups.set g
        ((s.groups.get g).shows ((s.queues.get g).enter (s.groups.get g).presented.isSome r)) } := by
  have h : s.enterRecord g r =
      (s.setQueue g ((s.queues.get g).enter (s.groups.get g).presented.isSome r)).present g := by
    refine if_pos ?_
    simp [hr, hd]
  rw [h, State.present_eq, State.setQueue_queues, State.setQueue_groups, Bank.get_set_eq, State.setQueue,
    State.setQueue, Bank.set_set]
  rfl

theorem Queue.place_empty {q : Queue} (h : q.records = []) (p : Bool) (r : Record) : q.place p r = [r] := by
  unfold Queue.place
  rw [h]
  simp [placeFromTail]

theorem ClaimSource.queue_of_system {c : ClaimSource} (h : ∀ n, c ≠ .input n) : c.queue = 8 := by
  cases c with
  | input n => exact absurd rfl (h n)
  | _ => rfl

/-- Settles O35. -/
theorem claimIsAdmitted : Obligations.ClaimIsAdmitted := by
  intro s
  refine ⟨fun h => ?_, fun c cs hc => ?_⟩
  · refine congrArg Host.Outcome.next ?_
    unfold State.takeClaim
    rw [h]
  intro g q x r
  refine ⟨fun n hn => ?_, ClaimSource.queue_of_system, fun hlimit hroom => ?_⟩
  · show c.source.queue.val = n.val / 8
    rw [hn]
    rfl
  have hadm : State.admissible { s with claims := cs } g = true := (State.admissible_iff _ g).2 ⟨hlimit, hroom⟩
  have htake : exec .claim s = .next (State.enterRecord { s with claims := cs } g c.record) := by
    refine congrArg Host.Outcome.next ((State.takeClaim_cons hc).trans ?_)
    exact if_pos hadm
  refine ⟨fun h => ?_, fun hr hd => ?_⟩
  · exact htake.trans (congrArg Host.Outcome.next (State.enterRecord_waits (s := { s with claims := cs }) c.record h))
  · have hshows := State.enterRecord_shows (s := { s with claims := cs }) c.record hr hd
    have hplace : (q.enter x.presented.isSome c.record).records = [q.asEntered c.record] := q.place_empty hr _ _
    have hshown : (q.enter x.presented.isSome c.record).shown x = { q with
        records := [{ r with seq := x.nextSeq }], pendingLoss := 0
        highWater := if q.runStart = 0 then some r.key else q.highWater } := by
      unfold Queue.shown Queue.highWaterAfter
      rw [hplace]
      rfl
    refine htake.trans (congrArg Host.Outcome.next (hshows.trans ?_))
    change { s with
      claims := cs
      queues := s.queues.set g ((q.enter x.presented.isSome c.record).shown x)
      groups := s.groups.set g (x.shows (q.enter x.presented.isSome c.record)) } = _
    rw [hshown]
    rfl

/-! ### Overflow (R61 to R63) -/

theorem raiseGap_eq_set {rs : List Record} {i : Nat} {old : Record} (h : rs[i]? = some old) (n : Nat) :
    raiseGap i n rs = rs.set i { old with gap := BitVec.ofNat 8 (min (old.gap.toNat + n) 255) } := by
  unfold raiseGap
  rw [List.modify_eq_set_getElem?, h]
  rfl

/-- Settles O36. -/
theorem claimOverflows : Obligations.ClaimOverflows := by
  intro s c cs hc g q shown i r lost hnot
  have hadm : ¬State.admissible { s with claims := cs } g = true := fun k => hnot ((State.admissible_iff _ g).1 k)
  have hover := (State.takeClaim_cons hc).trans (if_neg hadm)
  have hnew (hp : q.quota.policy = .dropNew) : s.takeClaim = State.dropNew { s with claims := cs } g :=
    hover.trans (by
      change (match q.quota.policy with
        | .dropNew => _
        | .dropOldest => _) = _
      rw [hp])
  have hold (hp : q.quota.policy = .dropOldest) :
      s.takeClaim = State.dropOldest { s with claims := cs } g c.record :=
    hover.trans (by
      change (match q.quota.policy with
        | .dropNew => _
        | .dropOldest => _) = _
      rw [hp])
  refine ⟨fun h => ?_, fun old hp hi => ⟨fun hrun hlt => ?_, fun h => ?_⟩⟩
  · refine congrArg Host.Outcome.next ?_
    cases hp : q.quota.policy with
    | dropNew => exact hnew hp
    | dropOldest =>
      exact (hold hp).trans
        (State.dropOldest_none (s := { s with claims := cs }) (h.resolve_left (by rw [hp]; decide)))
  · refine congrArg Host.Outcome.next ((hold hp).trans
      ((State.dropOldest_raise (s := { s with claims := cs }) hi ⟨hrun, hlt⟩).trans ?_))
    change State.setFlag (State.setQueue { s with claims := cs } g { q with records := raiseGap i 1 q.records }) .loss = _
    rw [raiseGap_eq_set hi]
    rfl
  · intro kept
    have hno : ¬(q.runStart ≤ i ∧ c.record.key.lt old.key = true) := by
      rintro ⟨hle, hlt⟩
      rcases h with h | h
      · omega
      · rw [hlt] at h
        cases h
    exact congrArg Host.Outcome.next ((hold hp).trans (State.dropOldest_replace (s := { s with claims := cs }) hi hno))

end Sys2Proof.Machine
end

section
/-!
PROOFS. The Delivery Unit: acknowledges, flushes, enables, attention and the interrupt line.
Settles O37, O38, O39.
-/
namespace Sys2Proof.Machine
-- Declarations in order: a worker that waits for the kernel holds 1 GiB of the check's memory.
set_option Elab.async false

/-! ### Presentation, acknowledge and flush as equations (R68, R74, R77) -/

theorem Queue.shown_cons {q : Queue} {r : Record} {rs : List Record} (h : q.records = r :: rs) (x : Group) :
    q.shown x = { q with
      records := { r with seq := x.nextSeq } :: rs
      highWater := if q.runStart = 0 then some r.key else q.highWater } := by
  unfold Queue.shown Queue.highWaterAfter
  rw [h]
  rfl

theorem State.freePresented_waits {s : State} {g : GroupNo}
    (h : (s.queues.get g).records.tail = [] ∨ (s.groups.get g).deliver = false) :
    s.freePresented g = { s with
      queues := s.queues.set g (s.queues.get g).freeHead, groups := s.groups.set g (s.groups.get g).cleared } := by
  refine if_neg ?_
  rcases h with h | h <;> simp [Queue.freeHead, h]

theorem State.freePresented_shows {s : State} {g : GroupNo} (h : (s.queues.get g).records.tail ≠ [])
    (hd : (s.groups.get g).deliver = true) :
    s.freePresented g = { s with
      queues := s.queues.set g ((s.queues.get g).freeHead.shown (s.groups.get g).cleared)
      groups := s.groups.set g ((s.groups.get g).cleared.shows (s.queues.get g).freeHead) } := by
  have hp : s.freePresented g =
      ((s.setQueue g (s.queues.get g).freeHead).setGroup g (s.groups.get g).cleared).present g :=
    if_pos (by simp [Queue.freeHead, h, hd])
  rw [hp, State.present_eq]
  simp only [State.setQueue, State.setGroup, Bank.get_set_eq, Bank.set_set]

theorem State.deliveryState_empty (s : State) (g : GroupNo) :
    s.deliveryState g = .empty ↔ (s.groups.get g).presented = none ∧ (s.queues.get g).records = [] := by
  unfold State.deliveryState
  cases (s.groups.get g).presented <;> cases (s.queues.get g).records <;> simp

theorem flushOp_group {w : Word} {g : GroupNo} (h : w.toNat = g.val) (s : State) :
    flushOp w s = .ok (s.flushGroup g) := by
  have hw : w.toNat < 9 := h ▸ g.isLt
  refine (dif_pos hw).trans ?_
  rw [show (⟨w.toNat, hw⟩ : GroupNo) = g from Fin.ext h]

/-- Settles O37. -/
theorem acknowledgeFlushAndAgeTimer : Obligations.AcknowledgeFlushAndAgeTimer := by
  refine ⟨fun g w s hr => ?_, fun g s => ⟨fun ht hg => ?_, fun h => ?_, fun hr => ?_⟩⟩
  · intro u q x
    have acked {t : State} (h : u.acknowledge g w = t) : exec (.acknowledge g w) s = .next t :=
      hostWrite_ok (a := BitVec.ofNat 8 (0x10 + g)) (op := ackOp g w) hr (congrArg Except.ok h)
    have flushed {t : State} (hw : w.toNat = g.val) (h : u.flushGroup g = t) : exec (.flush w) s = .next t :=
      hostWrite_ok (a := 0x19) (op := flushOp w) hr ((flushOp_group hw u).trans (congrArg Except.ok h))
    refine ⟨fun h => acked (if_neg h), fun h hq => acked ((if_pos h).trans (State.freePresented_waits hq)),
      fun h => hostWrite_error (a := 0x19) (op := flushOp w) hr (dif_neg (by omega)),
      fun hw h => flushed hw (if_neg ?_), fun hw hx hq => flushed hw (if_pos ?_), fun r rs h hq hd => ?_⟩
    · rw [State.deliveryState_empty]
      exact fun k => h.elim (fun h => h k.1) (fun h => h k.2)
    · exact (State.deliveryState_empty u g).2 ⟨hx, hq⟩
    · have htail : q.records.tail ≠ [] := by simp [hq]
      refine acked ((if_pos h).trans ((State.freePresented_shows htail hd).trans ?_))
      rw [Queue.shown_cons (q := (u.queues.get g).freeHead) hq]
      have hrun : (q.runStart - 1 = 0) = (q.runStart ≤ 1) := propext (by omega)
      simp only [← hrun]
      rfl
  · exact congrArg Host.Outcome.next (State.whenTickDue_due ht (beq_iff_eq.2 hg) _)
  · refine congrArg Host.Outcome.next ?_
    rcases h with h | h
    · exact State.whenTickDue_stopped h _ _
    · exact State.whenTickDue_notDue (by rwa [State.ageDue, beq_iff_eq]) _
  · rw [s.readAddr_eq (BitVec.ofNat 8 (0x10 + g)) (.ack g) rfl hr]
    cases h : (s.settled.groups.get g).presented <;> simp [State.readRegister, h]

/-! ### The delivery enables (R71) -/

/-- What a DELEN write makes of a group and its queue. -/
def Group.turned (x : Group) (q : Queue) (on : Bool) : Queue × Group :=
  if x.deliver = on then (q, x)
  else if on = true ∧ x.presented = none ∧ q.records ≠ [] then
    (q.shown x, { x with deliver := on }.shows q)
  else (q, { x with deliver := on })

theorem State.setDeliver_eq (s : State) (g : GroupNo) (on : Bool) :
    s.setDeliver g on = { s with
      queues := s.queues.set g ((s.groups.get g).turned (s.queues.get g) on).1
      groups := s.groups.set g ((s.groups.get g).turned (s.queues.get g) on).2 } := by
  unfold State.setDeliver Group.turned
  simp only [Bool.and_eq_true, beq_iff_eq, State.deliveryState_waiting]
  split
  · rw [Bank.set_get, Bank.set_get]
  · split
    · rw [State.present_eq]
      simp only [State.setQueue, State.setGroup, Bank.get_set_eq, Bank.set_set]
      rfl
    · rw [Bank.set_get]
      rfl

theorem Group.turned_turned (x : Group) (q : Queue) (on : Bool) :
    (x.turned q on).2.turned (x.turned q on).1 on = x.turned q on := by
  have h : (x.turned q on).2.deliver = on := by
    unfold Group.turned
    split
    · assumption
    · split <;> rfl
  exact if_pos h

/-- Group g and its queue. -/
def State.pairAt (s : State) (g : GroupNo) : Queue × Group := (s.queues.get g, s.groups.get g)

theorem State.setDeliver_pairAt (s : State) (g k : GroupNo) (on : Bool) :
    (s.setDeliver g on).pairAt k =
      if k = g then (s.groups.get g).turned (s.queues.get g) on else s.pairAt k := by
  rw [State.setDeliver_eq]
  unfold State.pairAt
  simp only [Bank.get_set]
  split <;> rfl

theorem forEach_setDeliver_pairAt (s : State) (on : GroupNo → Bool) (g : GroupNo) :
    (forEach (fun g t => t.setDeliver g (on g)) s).pairAt g = (s.groups.get g).turned (s.queues.get g) (on g) := by
  have settles {t : State} {k : GroupNo}
      (h : t.pairAt k = s.pairAt k ∨ t.pairAt k = (s.groups.get k).turned (s.queues.get k) (on k)) :
      (t.pairAt k).2.turned (t.pairAt k).1 (on k) = (s.groups.get k).turned (s.queues.get k) (on k) := by
    rcases h with h | h <;> rw [h]
    · rfl
    · exact Group.turned_turned _ _ _
  refine forEach_each
    (I := fun t => ∀ k, t.pairAt k = s.pairAt k ∨ t.pairAt k = (s.groups.get k).turned (s.queues.get k) (on k))
    (Q := fun k t => t.pairAt k = (s.groups.get k).turned (s.queues.get k) (on k))
    (fun i t ht k => ?_) (fun i t ht => ?_) (fun i k t ht hk => ?_) (fun _ => Or.inl rfl) g
  · rw [State.setDeliver_pairAt]
    split
    · next h => exact Or.inr (h ▸ settles (ht k))
    · exact ht k
  · rw [State.setDeliver_pairAt, if_pos rfl]
    exact settles (ht i)
  · rw [State.setDeliver_pairAt]
    split
    · next h => exact h ▸ settles (ht k)
    · exact hk

theorem forEach_setDeliver_frame (s : State) (on : GroupNo → Bool) :
    ∃ qs gs, forEach (fun g t => t.setDeliver g (on g)) s = { s with queues := qs, groups := gs } :=
  forEach_keeps (P := fun t => ∃ qs gs, t = { s with queues := qs, groups := gs })
    (by rintro g _ ⟨qs, gs, rfl⟩; exact ⟨_, _, State.setDeliver_eq _ g (on g)⟩) ⟨_, _, rfl⟩

/-- Settles O38. -/
theorem deliveryEnablesAreWritten : Obligations.DeliveryEnablesAreWritten := by
  intro w s hr
  refine ⟨fun i => ?_, ?_⟩
  · rw [s.readAddr_eq 0x1A .delen rfl hr]
    simp only [State.readRegister, getLsbD_groupWord, State.settled_deliver]
  obtain ⟨qs, gs, hframe⟩ := forEach_setDeliver_frame s.settled fun g => w.getLsbD g.val
  refine ⟨qs, gs, hostWrite_ok (a := 0x1A) (op := delenOp w) hr (congrArg Except.ok hframe), fun g => ?_⟩
  intro q x on
  have hpair : (qs.get g, gs.get g) = x.turned q on := by
    have h := forEach_setDeliver_pairAt s.settled (fun g => w.getLsbD g.val) g
    rwa [hframe] at h
  refine ⟨fun h => ?_, fun h hno => ?_, fun r rs h hon hp hq => ?_⟩
  · rw [show x.turned q on = (q, x) from if_pos h] at hpair
    exact Prod.mk.inj hpair
  · have hstay : ¬(on = true ∧ x.presented = none ∧ q.records ≠ []) := by
      rintro ⟨hon, hp, hq⟩
      rw [hon] at hno
      simp [hp, hq] at hno
    rw [show x.turned q on = (q, { x with deliver := on }) from (if_neg h).trans (if_neg hstay)] at hpair
    exact Prod.mk.inj hpair
  · have hshow : on = true ∧ x.presented = none ∧ q.records ≠ [] := ⟨hon, hp, by simp [hq]⟩
    rw [show x.turned q on = (q.shown x, { x with deliver := on }.shows q) from (if_neg h).trans (if_pos hshow),
      Queue.shown_cons hq, hon] at hpair
    exact Prod.mk.inj hpair

/-! ### Attention and the interrupt line (R67, R79, R82 to R84, R184) -/

/-- A group has attention (R79). -/
def State.Attends (s : State) (g : GroupNo) : Prop :=
  ∃ w r rs, (s.groups.get g).presented = some w ∧ (s.queues.get g).records = r :: rs ∧
    ((s.queues.get g).quota.threshold.toNat ≤ rs.length + 1 ∨ r.flags.urgent = true ∨
      (s.groups.get g).ageMark = true)

theorem State.attention_iff (s : State) (g : GroupNo) : s.attention g = true ↔ s.Attends g := by
  unfold State.attention State.presentedRecord State.Attends Queue.count
  cases (s.groups.get g).presented with
  | none => simp
  | some w =>
    cases (s.queues.get g).records with
    | nil => simp
    | cons r rs => simp [or_assoc]

theorem State.groupAsks_iff (s : State) (g : GroupNo) :
    s.groupAsks g = true ↔ s.Attends g ∧ (s.groups.get g).irqEnable = true := by
  rw [State.groupAsks, Bool.and_eq_true, State.attention_iff]

theorem State.nextGroup_none {s : State} (h : ∀ g, s.groupAsks g = false) : s.nextGroup = 15 := by
  unfold State.nextGroup
  rw [List.find?_eq_none.2 fun g _ => by simp [h g]]

theorem State.nextGroup_first {s : State} {g : GroupNo} (hg : s.groupAsks g = true)
    (hfirst : ∀ k, k < g → s.groupAsks k = false) : s.nextGroup = g.val := by
  have hfind : (List.finRange 9).find? s.groupAsks = some g :=
    List.find?_eq_some_iff_getElem.2 ⟨hg, g.val, by simp, by simp, fun j hj => by
      simpa using hfirst ⟨j, by omega⟩ hj⟩
  unfold State.nextGroup
  rw [hfind]

theorem and_ne_zero_iff {n : Nat} (x y : BitVec n) :
    x &&& y ≠ 0 ↔ ∃ i : Fin n, x.getLsbD i.val = true ∧ y.getLsbD i.val = true := by
  constructor
  · intro h
    by_contra hno
    refine h (BitVec.eq_of_getLsbD_eq fun i hi => ?_)
    simpa using fun hx => by simpa using fun hy => hno ⟨⟨i, hi⟩, hx, hy⟩
  · rintro ⟨i, hx, hy⟩ h
    have hbit : (x &&& y).getLsbD i.val = true := by rw [BitVec.getLsbD_and, hx, hy]; rfl
    simp [h] at hbit

theorem toNat_gstatWord (s : State) (g : GroupNo) : (s.gstatWord g).toNat =
    16384 * (s.deliveryState g).code.toNat + (s.queues.get g).records.length % 1024 := by
  have hcount : ((BitVec.ofNat 10 (s.queues.get g).count).zeroExtend 16).toNat =
      (s.queues.get g).records.length % 1024 := by
    rw [toNat_widen (by decide), BitVec.toNat_ofNat]
    rfl
  have hcode : (s.deliveryState g).code.toNat ≤ 2 := by cases s.deliveryState g <;> decide
  unfold State.gstatWord
  rw [BitVec.or_comm, toNat_or_shiftLeft (by omega) (by omega), hcount]
  omega

/-- Settles O39. -/
theorem interruptLineFollowsItsRequests : Obligations.InterruptLineFollowsItsRequests := by
  intro s hr u attention asks
  have hasks (t : State) (g : GroupNo) : asks t g ↔ t.groupAsks g = true := (t.groupAsks_iff g).symm
  refine ⟨fun g => ?_, fun h => ?_, fun g h hfirst => ?_, ?_, fun i => ?_, fun g => ?_⟩
  · rw [s.readAddr_eq 0x1C .gattn rfl hr]
    have hbit := getLsbD_groupWord s.settled.attention ⟨g.val, by omega⟩
    rw [dif_pos g.isLt] at hbit
    exact (iff_of_eq (congrArg (· = true) hbit)).trans (State.attention_iff _ g)
  · rw [s.readAddr_eq 0x06 .next rfl hr]
    have hnone := State.nextGroup_none (s := u) fun g => by simpa [hasks] using h g
    exact congrArg (BitVec.ofNat 16) hnone
  · rw [s.readAddr_eq 0x06 .next rfl hr]
    have hnext := State.nextGroup_first (s := u) ((hasks u g).1 h) fun k hk => by simpa [hasks] using hfirst k hk
    refine (congrArg (fun n => (BitVec.ofNat 16 n).toNat) hnext).trans ?_
    rw [BitVec.toNat_ofNat]
    omega
  · unfold State.irqAsserted
    rw [hr, Bool.not_false, Bool.true_and, Bool.or_eq_true, anyIdx_iff, bne_iff_ne, and_ne_zero_iff]
    simp only [hasks]
  · rw [s.readAddr_eq 0x1D .gpres rfl hr]
    exact getLsbD_groupWord (fun g => (s.settled.groups.get g).presented.isSome) i
  · rw [s.readAddr_eq (BitVec.ofNat 8 (0x20 + g)) (.gstat g) rfl hr]
    refine (toNat_gstatWord u g).trans ?_
    unfold State.deliveryState
    cases (u.groups.get g).presented <;> cases (u.queues.get g).records <;> simp [DeliveryState.code]

end Sys2Proof.Machine
end

section
/-!
PROOFS. The freeze commands and the two resets. Settles O4, O5, O42.
-/
namespace Sys2Proof.Machine
-- Declarations in order: a worker that waits for the kernel holds 1 GiB of the check's memory.
set_option Elab.async false

/-! ### The freeze state and its causes (R96 to R101) -/

theorem Causes.any_iff (c : Causes) : c.any = true ↔ c ≠ {} := by
  obtain ⟨p, k, h⟩ := c
  revert p k h
  decide

theorem State.frozen_iff (s : State) : s.frozen = true ↔ s.causes ≠ {} := s.causes.any_iff

/-- The stamp of R50 spelled out. -/
theorem State.eventStamp_eq (s : State) :
    s.eventStamp = if s.tb.state = .stopped then ⟨s.tb.counter, s.tb.epoch, true⟩
      else ⟨s.tb.tickTime, s.tb.tickEpoch, decide (s.tb.tickState ≠ .locked)⟩ := by
  unfold State.eventStamp State.tickStamp
  rw [TimebaseState.bne_locked]

theorem State.addCause_running {s : State} (h : s.causes = {}) (c : Cause) (b : Bool) (st : Stamp) :
    s.addCause c b st = { s with
      causes := ({} : Causes).add c, errFlags := s.errFlags ||| 0x40
      claims := insertClaim ⟨.output, b, freezeRecord false (({} : Causes).add c) st⟩ s.claims } := by
  refine (if_neg (by rw [State.frozen_iff]; exact not_not_intro h)).trans ?_
  rw [h]
  rfl

theorem State.addCause_frozen {s : State} (h : s.causes ≠ {}) (c : Cause) (b : Bool) (st : Stamp) :
    s.addCause c b st = { s with causes := s.causes.add c } :=
  if_pos ((State.frozen_iff s).2 h)

/-- PIN at the end of a reset, from which the stage comes out RUNNING with no claim and no flag. -/
theorem State.pinAtResetEnd_eq {s : State} (hc : s.causes = {}) (hcl : s.claims = []) (he : s.errFlags = 0) :
    s.pinAtResetEnd = { s with
      causes := { pin := !s.frzn }, errFlags := if s.frzn then 0 else 0x40
      claims := if s.frzn then [] else [⟨.output, false, freezeRecord false { pin := true } s.eventStamp⟩] } := by
  by_cases hf : s.frzn = true
  · have hpin : (!s.frzn) = false := by rw [hf]; rfl
    have hs : s = { s with causes := {}, claims := [], errFlags := 0 } := by rw [← hc, ← hcl, ← he]
    rw [hpin, if_pos hf, if_pos hf]
    exact (if_pos hf).trans hs
  · have hpin : (!s.frzn) = true := by simpa using hf
    rw [hpin, if_neg hf, if_neg hf]
    refine (if_neg hf).trans ((State.addCause_running hc .pin false s.eventStamp).trans ?_)
    rw [hcl, he]
    rfl

theorem toNat_frzctlWord (s : State) : s.frzctlWord.toNat =
    (if s.causes ≠ {} then 16 else 0) + (if s.causes.pin then 32 else 0) +
      (if s.causes.command then 64 else 0) + (if s.causes.holdover then 128 else 0) +
      (if s.frzn then 256 else 0) := by
  have bits (a b c d e : Bool) : (bitAt a 4 ||| bitAt b 5 ||| bitAt c 6 ||| bitAt d 7 ||| bitAt e 8).toNat =
      (if a then 16 else 0) + (if b then 32 else 0) + (if c then 64 else 0) + (if d then 128 else 0) +
        (if e then 256 else 0) := by
    revert a b c d e
    decide
  unfold State.frzctlWord
  rw [bits]
  simp only [State.frozen_iff]

/-- Settles O42. -/
theorem freezeAndRelease : Obligations.FreezeAndRelease := by
  refine ⟨fun s hr => ⟨congrArg Host.Outcome.next ?_, rfl⟩, fun s hr => ?_⟩
  · unfold State.frznFalls
    cases h : s.frzn with
    | true => exact if_pos hr
    | false =>
      change s = { s with frzn := false }
      rw [← h]
  intro u st running
  have hst : s.eventStamp = st := s.eventStamp_eq
  have hst' : u.eventStamp = st := (State.settled_eventStamp s).trans hst
  have hcauses : u.causes = s.causes := State.settled_causes s
  have fall {t : State} (hf : s.frzn = true)
      (h : State.addCause { s with frzn := false } .pin false s.eventStamp = t) : exec .frznFall s = .next t := by
    refine congrArg Host.Outcome.next (Eq.trans ?_ h)
    unfold State.frznFalls
    rw [hf, hr]
    rfl
  have ok {op : State → Except RefCode State} {t : State} (h : op u = .ok t) :
      hostWrite 0x50 op s = .next t := hostWrite_ok hr h
  have high (h : s.frzn = true) : ¬(!u.frzn) = true := by simp [u, h]
  refine ⟨fun hf => congrArg Host.Outcome.next (if_neg (by simp [hf])),
    fun hf h => fall hf ((State.addCause_running (s := { s with frzn := false }) h _ _ _).trans ?_),
    fun hf h => fall hf (State.addCause_frozen (s := { s with frzn := false }) h _ _ _), rfl,
    fun h => ok (op := freezeOp) (congrArg Except.ok ((State.addCause_running (hcauses.trans h) _ _ _).trans ?_)),
    fun h => ok (op := freezeOp) (congrArg Except.ok ((State.addCause_frozen (hcauses.trans_ne h) _ _ _).trans ?_)),
    fun hf => hostWrite_error (a := 0x50) (op := unfreezeOp) hr (if_pos (by simp [hf])),
    fun hf h => ok (op := unfreezeOp) ((if_neg (high hf)).trans (if_neg ?_)),
    fun hf h => ok (op := unfreezeOp) (((if_neg (high hf)).trans (if_pos ?_)).trans (congrArg Except.ok ?_)), ?_⟩
  · rw [hst]
    rfl
  · rw [hst']
    rfl
  · rw [hcauses]
    rfl
  · rw [State.frozen_iff, hcauses]
    exact not_not_intro h
  · rw [State.frozen_iff, hcauses]
    exact h
  · unfold State.releaseFreeze
    rw [hcauses, hst']
    rfl
  · rw [s.readAddr_eq 0x50 .frzctl rfl hr]
    refine (toNat_frzctlWord s.settled).trans ?_
    rw [State.settled_causes, State.settled_frzn]

/-! ### The resets (R102, R103, R175, R177) -/

theorem State.reset_queue (g : GroupNo) : State.reset.queues.get g =
    { records := [], runStart := 0, highWater := none, pendingLoss := 0,
      quota := if g = 8 then ⟨64, 256, .dropNew, 1, 0⟩ else ⟨32, 128, .dropNew, 1, 0⟩ } := by
  rw [(reset_queue_group g).1, Quota.default]

theorem State.deviceResetValues_ends (s : State) : s.deviceResetValues.pinAtResetEnd = { s.deviceResetValues with
    causes := { pin := !s.frzn }, errFlags := if s.frzn then 0 else 0x40
    claims := if s.frzn then [] else [⟨.output, false, freezeRecord false { pin := true } ⟨0, 0, true⟩⟩] } :=
  State.pinAtResetEnd_eq rfl rfl rfl

theorem exec_hostWrite_inReset {s : State} (h : s.inReset = true) {c : Instr} {a : Addr} {w : Word}
    (hc : writeOfCommand c = some (a, w)) : exec c s = .next s := by
  rw [exec_hostWrite hc]
  unfold hostWrite
  rw [h]
  rfl

theorem State.pin_inReset {s : State} (h : s.inReset = true) (n : OutNo) : s.pin n = none :=
  if_pos (by simp [h])

/-- Settles O4. -/
theorem deviceResetLeavesTheResetValues : Obligations.DeviceResetLeavesTheResetValues := by
  intro s
  refine ⟨⟨_, rfl, rfl, State.pin_inReset rfl⟩, fun hr => ?_, fun hr => ?_, fun hr => ?_⟩
  · have hexec : exec (.deviceReset true) s = .next s.deviceResetValues.pinAtResetEnd :=
      congrArg Host.Outcome.next (if_pos hr)
    rw [State.deviceResetValues_ends] at hexec
    refine ⟨_, hexec, rfl, rfl, rfl, rfl, fun n => Bank.get_fill _ n, State.reset_queue, fun g => Bank.get_fill _ g,
      rfl, fun n => Bank.get_fill _ n, fun i => Bank.get_fill _ i, rfl, rfl, rfl, rfl, rfl, rfl, rfl, rfl, rfl, rfl,
      rfl, rfl, rfl, fun i => Bank.get_fill _ i, fun hf => ?_, fun hf => ?_⟩
    · exact ⟨congrArg (fun b => ({ pin := !b } : Causes)) hf, if_pos hf, if_pos hf⟩
    · have hlow : ¬s.frzn = true := by simp [hf]
      exact ⟨congrArg (fun b => ({ pin := !b } : Causes)) hf, if_neg hlow, if_neg hlow⟩
  · exact congrArg Host.Outcome.next ((if_neg (by decide)).trans (if_neg (by rw [hr]; decide)))
  · refine ⟨fun c a w => exec_hostWrite_inReset hr, congrArg Host.Outcome.next (if_pos hr), fun a => if_pos hr, ?_,
      State.pin_inReset hr, fun hm samples sync first => exec_tick_stopped ?_ samples sync first⟩
    · unfold State.irqAsserted
      rw [hr]
      rfl
    · exact (((modeSafe_iff s).1 hm).2.2.reset_stops hr).2

/-- A soft reset of a part whose tick is finished, which leaves the state `u`. -/
theorem State.softReset_eq {s u : State} (hu : s.finishTick = u) : s.softReset = { u.softResetValues with
    causes := { pin := !u.frzn }, errFlags := if u.frzn then 0 else 0x40
    claims := if u.frzn then []
      else [⟨.output, false, freezeRecord false { pin := true } u.softResetValues.eventStamp⟩] } := by
  unfold State.softReset
  rw [hu]
  exact State.pinAtResetEnd_eq rfl rfl rfl

/-- Settles O5. -/
theorem softResetKeepsTheTimebase : Obligations.SoftResetKeepsTheTimebase := by
  intro s hr
  obtain ⟨u, hu⟩ : ∃ u, s.settled.finishTick = u := ⟨_, rfl⟩
  have htb : u.tb = s.missExpiry.tb := by
    rw [← hu, finishTick_tb, State.missExpiry_tb, State.missExpiry_tb, State.settled_tb]
  have hmoves := (moves_settled (more := False) s).trans (moves_finishTick s.settled)
  rw [hu] at hmoves
  have hsame := SameSettings.moves hmoves
  have hpanel := Prod.mk.inj hsame.panel
  obtain ⟨hreset, hpanel⟩ := Prod.mk.inj hpanel.2
  have hfrzn : u.frzn = s.frzn := (Prod.mk.inj hpanel).1
  have hpending : u.pending = s.pending := Moves.pending hmoves
  have hexec : exec .softReset s = .next s.settled.softReset := hostWrite_ok (a := 0x02) (op := softResetOp) hr rfl
  rw [State.softReset_eq hu] at hexec
  refine ⟨_, s.missExpiry, hexec, rfl, htb, fun hd => ?_, hfrzn, hpending, hreset.trans hr, fun n => ?_, rfl,
    rfl, rfl, rfl, rfl, rfl, rfl, rfl, rfl, rfl, rfl, rfl, fun i => Bank.get_fill _ i, fun hf => ?_, fun hf => ?_⟩
  · refine htb.trans ?_
    rw [State.missExpiry_tb, hd]
    rfl
  · obtain ⟨-, hs⟩ := Prod.mk.inj (hsame.outputs n)
    obtain ⟨hsafe, hdrive⟩ := Prod.mk.inj hs
    refine (Bank.get_map _ _ n).trans ?_
    rw [hsafe, hdrive]
  · have hhigh : u.frzn = true := hfrzn.trans hf
    exact ⟨congrArg (fun b => ({ pin := !b } : Causes)) hhigh, if_pos hhigh, if_pos hhigh⟩
  · have hlow : ¬u.frzn = true := by rw [hfrzn, hf]; decide
    refine ⟨congrArg (fun b => ({ pin := !b } : Causes)) (hfrzn.trans hf), if_neg hlow, (if_neg hlow).trans ?_⟩
    rw [State.eventStamp_eq]

end Sys2Proof.Machine
end

section
/-!
PROOFS. The Schedule Unit: the active list, firing, the commit and the staged operations.
Settles O43, O46, O47.
-/
namespace Sys2Proof.Machine
-- Declarations in order: a worker that waits for the kernel holds 1 GiB of the check's memory.
set_option Elab.async false

/-! ### Words put together from fields -/

/-- The fields put into a word so far lie below bit k and make up the number n. -/
def Packs (x : Word) (k n : Nat) : Prop := x.toNat = n ∧ n < 2 ^ k

theorem Packs.zero {x : Word} {k : Nat} (h : x.toNat < 2 ^ k) : Packs x k x.toNat := ⟨rfl, h⟩

theorem Packs.bitZero (b : Bool) : Packs (bitAt b 0) 1 b.toNat := by
  cases b <;> exact ⟨rfl, by decide⟩

theorem Packs.field {x y : Word} {k n : Nat} (h : Packs x k n) (j m : Nat) (hk : k ≤ j) (hy : y.toNat < 2 ^ m)
    (hm : j + m ≤ 16) : Packs (x ||| y <<< j) (j + m) (n + 2 ^ j * y.toNat) := by
  have hpow : 2 ^ j * 2 ^ m ≤ 2 ^ 16 := by rw [← Nat.pow_add]; exact Nat.pow_le_pow_right (by decide) hm
  have hlt : 2 ^ j * y.toNat + 2 ^ j ≤ 2 ^ j * 2 ^ m := by
    rw [← Nat.mul_succ]
    exact Nat.mul_le_mul_left _ hy
  have hx : n < 2 ^ j := h.2.trans_le (Nat.pow_le_pow_right (by decide) hk)
  refine ⟨?_, ?_⟩
  · rw [toNat_or_shiftLeft (h.1.symm ▸ hx) (by rw [Nat.mul_comm]; omega), h.1]
  · rw [Nat.pow_add]
    omega

theorem Packs.bit {x : Word} {k n : Nat} (h : Packs x k n) (b : Bool) (j : Nat) (hk : k ≤ j) (hj : j < 16) :
    Packs (x ||| bitAt b j) (j + 1) (n + 2 ^ j * b.toNat) := by
  have hb := Packs.bitZero b
  have hfield := h.field (y := bitAt b 0) j 1 hk (hb.1.trans_lt hb.2) hj
  rwa [← bitAt_eq_shiftLeft, hb.1] at hfield

theorem bit_eq_toNat (b : Bool) (k : Nat) : (if b then 2 ^ k else 0) = 2 ^ k * b.toNat := by
  cases b <;> simp

theorem toNat_satOf (w n : Nat) : (satOf w n).toNat = min n (2 ^ w - 1) := by
  have := Nat.two_pow_pos w
  rw [satOf, BitVec.toNat_ofNat]
  exact Nat.mod_eq_of_lt (by omega)

theorem getLsbD_widen_of_le {m : Nat} (x : BitVec m) {k : Nat} (h : m ≤ k) : (x.zeroExtend 16).getLsbD k = false := by
  rw [BitVec.zeroExtend_eq_setWidth, BitVec.getLsbD_setWidth, BitVec.getLsbD_of_ge _ _ h, Bool.and_false]

/-- The detail of an ACTION record by its fields (R199). -/
theorem actionDetail_fields (n : Nat) (late skipped blocked frozen last : Bool) :
    let d := actionDetail n late skipped blocked frozen last
    d.toNat % 256 = min n 255 ∧ d.getLsbD 8 = late ∧ d.getLsbD 9 = skipped ∧ d.getLsbD 10 = blocked ∧
      d.getLsbD 11 = frozen ∧ d.getLsbD 12 = last ∧ d.toNat / 8192 = 0 := by
  intro d
  have hsat : ((satOf 8 n).zeroExtend 16).toNat = min n 255 :=
    (toNat_widen (by decide) _).trans (toNat_satOf 8 n)
  have hd : Packs d 13 (((satOf 8 n).zeroExtend 16).toNat + 2 ^ 8 * late.toNat + 2 ^ 9 * skipped.toNat +
      2 ^ 10 * blocked.toNat + 2 ^ 11 * frozen.toNat + 2 ^ 12 * last.toNat) :=
    (((((Packs.zero (k := 8) (by rw [hsat]; omega)).bit late 8 (by decide) (by decide)).bit skipped 9 (by decide)
      (by decide)).bit blocked 10 (by decide) (by decide)).bit frozen 11 (by decide) (by decide)).bit last 12
      (by decide) (by decide)
  rw [hsat] at hd
  have hbits (k : Nat) (hk : 8 ≤ k) : d.getLsbD k = ((late && decide (k = 8)) || (skipped && decide (k = 9)) ||
      (blocked && decide (k = 10)) || (frozen && decide (k = 11)) || (last && decide (k = 12))) := by
    simp only [d, actionDetail, BitVec.getLsbD_or, getLsbD_widen_of_le (satOf 8 n) hk, getLsbD_bitAt _ _ _ (show 8 < 16 by decide),
      getLsbD_bitAt _ _ _ (show 9 < 16 by decide), getLsbD_bitAt _ _ _ (show 10 < 16 by decide),
      getLsbD_bitAt _ _ _ (show 11 < 16 by decide), getLsbD_bitAt _ _ _ (show 12 < 16 by decide), Bool.false_or]
  refine ⟨?_, ?_, ?_, ?_, ?_, ?_, ?_⟩
  · rw [hd.1]
    omega
  · rw [hbits 8 (by decide)]; simp
  · rw [hbits 9 (by decide)]; simp
  · rw [hbits 10 (by decide)]; simp
  · rw [hbits 11 (by decide)]; simp
  · rw [hbits 12 (by decide)]; simp
  · have := hd.2
    rw [hd.1]
    omega

/-! ### The place of an entry and what a firing does (R130, R133, R134, R136) -/

/-- An entry stands directly ahead of the first that is still ahead and due later (R130). -/
theorem insertActive_split (now : Time) (a : Active) (xs : List Active) : ∃ ahead behind, xs = ahead ++ behind ∧
    insertActive now a xs = ahead ++ a :: behind ∧
    (∀ x ∈ ahead, reached now x.entry.due = true ∨ distance now x.entry.due ≤ distance now a.entry.due) ∧
    ∀ x, behind.head? = some x → reached now x.entry.due = false ∧
      distance now a.entry.due < distance now x.entry.due := by
  induction xs with
  | nil => exact ⟨[], [], rfl, rfl, fun _ h => absurd h List.not_mem_nil, fun _ h => by cases h⟩
  | cons x xs ih =>
    unfold insertActive
    split
    · next h =>
      refine ⟨[], x :: xs, rfl, rfl, fun _ h => absurd h List.not_mem_nil, fun y hy => ?_⟩
      cases hy
      simpa using h
    · next h =>
      obtain ⟨ahead, behind, rfl, hins, hahead, hbehind⟩ := ih
      refine ⟨x :: ahead, behind, rfl, congrArg (x :: ·) hins, fun y hy => ?_, hbehind⟩
      rcases List.mem_cons.1 hy with rfl | hy
      · cases hr : reached now y.entry.due with
        | true => exact Or.inl rfl
        | false => exact Or.inr (by simpa [hr] using h)
      · exact hahead y hy

theorem State.reenter_eq (s : State) (e : Option Entry) :
    s.reenter e = { s with sched := s.sched.reentered s.tb.counter e } := by
  cases e <;> rfl

theorem State.reportAction_eq (s : State) (e : Entry) (b : Bool) (d : Word) (st : Stamp) :
    s.reportAction e b d st = { s with
      claims := if e.report then insertClaim ⟨.schedule, b, actionRecord e d st⟩ s.claims else s.claims } := by
  unfold State.reportAction
  cases e.report <;> rfl

theorem State.tickStamp_eq (s : State) :
    s.tickStamp = ⟨s.tb.tickTime, s.tb.tickEpoch, decide (s.tb.tickState ≠ .locked)⟩ := by
  unfold State.tickStamp
  rw [TimebaseState.bne_locked]

/-- The claimed values after a schedule claim (R92). -/
def State.scheduled (s : State) (a : Action) (mask : BitVec 32) : Bank OutLine 32 :=
  s.outputs.mapIdx fun n o =>
    if covers mask n && o.owner == .schedule then { o with claimed := a.apply n o.claimed } else o

theorem State.scheduled_get (s : State) (a : Action) (mask : BitVec 32) (n : OutNo) :
    (s.scheduled a mask).get n = if mask.getLsbD n.val = true ∧ (s.outputs.get n).owner = .schedule then
      { s.outputs.get n with claimed := a.apply n (s.outputs.get n).claimed } else s.outputs.get n := by
  unfold State.scheduled
  rw [Bank.get_mapIdx]
  exact if_congr (by rw [Bool.and_eq_true, beq_iff_eq]; rfl) rfl rfl

/-- A firing writes the output lines, BLOCKED, the active list and the claims. -/
theorem State.fireEntry_eq (s : State) (e : Entry) (late atTick : Bool) (st : Stamp) :
    s.fireEntry e late atTick st = { s with
      outputs := s.scheduled e.action e.mask
      errFlags := if s.blockedFor .schedule e.mask then s.errFlags ||| 0x20 else s.errFlags
      sched := s.sched.reentered s.tb.counter (e.afterDue s.tb.counter).2
      claims := if e.report then insertClaim ⟨.schedule, atTick, actionRecord e
          (actionDetail (e.afterDue s.tb.counter).1 late false (s.blockedFor .schedule e.mask) s.frozen
            (e.afterDue s.tb.counter).2.isNone) st⟩ s.claims
        else s.claims } := by
  unfold State.fireEntry State.scheduleClaim
  rw [State.setFlagIf_blocked, State.reportAction_eq, State.reenter_eq]
  rfl

theorem Option.isNone_eq_decide {α : Type} [DecidableEq α] (o : Option α) : o.isNone = decide (o = none) := by
  cases o <;> simp

theorem State.skipEntry_eq (s : State) (e : Entry) (st : Stamp) :
    s.skipEntry e st = { s with
      sched := s.sched.reentered s.tb.counter (e.afterDue s.tb.counter).2
      claims := if e.report then insertClaim ⟨.schedule, true, actionRecord e
          (actionDetail ((e.afterDue s.tb.counter).1 + 1) true true false false
            (e.afterDue s.tb.counter).2.isNone) st⟩ s.claims
        else s.claims } := by
  unfold State.skipEntry
  rw [State.reportAction_eq, State.reenter_eq]

theorem State.fireHead_ahead {s : State} (h : s.headReached = false) : s.fireHead = s :=
  State.whenTickDue_notDue (by rw [h]; decide) _

theorem State.headReached_cons {s : State} {a : Active} {rest : List Active} (h : s.sched.active = a :: rest) :
    s.headReached = reached s.tb.counter a.entry.due := by
  unfold State.headReached
  rw [h]

theorem State.fireHead_cons {s : State} {a : Active} {rest : List Active} (h : s.sched.active = a :: rest)
    (ht : s.tb.state ≠ .stopped) (hr : reached s.tb.counter a.entry.due = true) :
    s.fireHead = (s.setSched { s.sched with active := rest }).fireEntry a.entry false true s.tickStamp := by
  refine (State.whenTickDue_due ht ((State.headReached_cons h).trans hr) _).trans ?_
  rw [h]

/-- Settles O43. -/
theorem headFiresWhenReached : Obligations.HeadFiresWhenReached := by
  refine ⟨insertActive_split, fun now e => rfl, fun s e late atTick st => ?_, fun s e st => ?_, fun s => ?_⟩
  · intro covered blocked after detail
    have hblocked : s.blockedFor .schedule e.mask = decide blocked := by
      rw [Bool.eq_iff_iff, State.blockedFor_iff, decide_eq_true_iff]
    refine ⟨s.scheduled e.action e.mask, fun n => s.scheduled_get e.action e.mask n, ?_⟩
    rw [State.fireEntry_eq, hblocked, Option.isNone_eq_decide, if_congr (Q := blocked) decide_eq_true_iff rfl rfl]
    rfl
  · intro after detail
    rw [State.skipEntry_eq, Option.isNone_eq_decide]
    rfl
  · refine ⟨fun h => ?_, fun h => ?_, fun a rest h => ⟨fun hr => ?_, fun ht hr => ?_⟩⟩
    · refine congrArg Host.Outcome.next (State.fireHead_ahead ?_)
      unfold State.headReached
      rw [h]
    · exact congrArg Host.Outcome.next (State.whenTickDue_stopped h _ _)
    · exact congrArg Host.Outcome.next (State.fireHead_ahead ((State.headReached_cons h).trans hr))
    · refine congrArg Host.Outcome.next ((State.fireHead_cons h ht hr).trans ?_)
      rw [State.tickStamp_eq]
      rfl

/-! ### The commit (R154 to R157, R164) -/

theorem State.finishCommit_eq (s : State) : s.finishCommit = { s with
    sched := { s.sched with staging := [], progress := 0, commit := .open_ }
    claims := insertClaim ⟨.schedule, false, commitRecord s.sched s.eventStamp⟩ s.claims
    errFlags := if s.sched.refused = 0 then s.errFlags else s.errFlags ||| 0x10 } := by
  unfold State.finishCommit State.setFlagIf
  by_cases h : s.sched.refused = 0
  · rw [if_pos h, if_neg (by simp [h])]
    rfl
  · rw [if_neg h, if_pos (by simpa using h)]
    rfl

/-- The counts of a batch at its start (R154). -/
def Schedule.fresh (x : Schedule) : Schedule :=
  { x with progress := 0, applied := 0, removed := 0, refused := 0, firstRefusal := none }

theorem State.startApplying_batch {s : State} (h : s.sched.staging ≠ []) :
    s.startApplying = { s with sched := { s.sched.fresh with commit := .applying } } :=
  if_neg (by rw [List.isEmpty_iff]; exact h)

theorem commitRecord_congr {x y : Schedule} (st : Stamp) (ha : x.applied = y.applied) (hr : x.removed = y.removed)
    (hf : x.refused = y.refused) (hw : x.firstRefusal = y.firstRefusal) : commitRecord x st = commitRecord y st := by
  unfold commitRecord
  rw [ha, hr, hf, hw]

theorem State.startApplying_empty {s : State} (h : s.sched.staging = []) : s.startApplying = { s with
    sched := { s.sched.fresh with commit := .open_ }
    claims := insertClaim ⟨.schedule, false, commitRecord s.sched.fresh s.eventStamp⟩ s.claims } := by
  refine (if_pos (by rw [h]; rfl)).trans ((State.finishCommit_eq _).trans ?_)
  rw [commitRecord_congr (y := s.sched.fresh) _ rfl rfl rfl rfl]
  unfold Schedule.fresh
  rw [h]
  rfl

/-- What COMMIT_NOW, COMMIT_AT and COMMIT_TIME_REACHED do to a batch that they start. -/
theorem starts_batch {c : Instr} {s b : State} {st : Stamp} (hst : b.eventStamp = st)
    (h : exec c s = .next b.startApplying) :
    (b.sched.staging ≠ [] → exec c s = .next { b with sched := { b.sched.fresh with commit := .applying } }) ∧
    (b.sched.staging = [] → exec c s = .next { b with
      sched := { b.sched.fresh with commit := .open_ }
      claims := insertClaim ⟨.schedule, false, commitRecord b.sched.fresh st⟩ b.claims }) := by
  refine ⟨fun hs => h.trans (congrArg Host.Outcome.next (State.startApplying_batch hs)), fun hs => ?_⟩
  rw [h, State.startApplying_empty hs, hst]

theorem toNat_sstat (x : Schedule) : x.statusWord.toNat =
    (match x.commit with | .open_ => 0 | .armed => 1 | .applying => 2) +
      4 * (x.staging.length % 128) + 512 * (x.progress % 128) := by
  have hcode : (match x.commit with | .open_ => (0 : Word) | .armed => 1 | .applying => 2).toNat =
      (match x.commit with | .open_ => 0 | .armed => 1 | .applying => 2) := by cases x.commit <;> rfl
  have hlt : (match x.commit with | .open_ => (0 : Word) | .armed => 1 | .applying => 2).toNat < 2 ^ 2 := by
    cases x.commit <;> decide
  have hseven (n : Nat) : ((BitVec.ofNat 7 n).zeroExtend 16).toNat = n % 128 := by
    rw [toNat_widen (by decide), BitVec.toNat_ofNat]
  have hsmall (n : Nat) : ((BitVec.ofNat 7 n).zeroExtend 16).toNat < 2 ^ 7 := by
    rw [hseven]
    omega
  have h := (((Packs.zero hlt).field 2 7 (by decide) (hsmall x.staging.length) (by decide)).field 9 7 (by decide)
    (hsmall x.progress) (by decide)).1
  rw [hseven, hseven, hcode] at h
  exact h

/-- Settles O46. -/
theorem commitCommands : Obligations.CommitCommands := by
  intro s u x st fresh starts
  have hx : u.sched = x := State.settled_sched s
  have hst : s.eventStamp = st := s.eventStamp_eq
  have hst' : u.eventStamp = st := (State.settled_eventStamp s).trans hst
  have started {c : Instr} (h : exec c s = .next u.startApplying) : starts c u := by
    have := starts_batch hst' h
    rwa [hx] at this
  refine ⟨fun hr => ?_, fun ht hc hreach => ?_, fun h => ?_, fun hc hp => ?_, fun h => ?_⟩
  · have ok {op : State → Except RefCode State} {t : State} (h : op u = .ok t) :
        hostWrite 0x60 op s = .next t := hostWrite_ok hr h
    have busy {op : State → Except RefCode State} (h : op u = .error .busy) :
        hostWrite 0x60 op s = .next (u.refuse .busy 0x60) := hostWrite_error hr h
    have is {k : CommitState} (h : x.commit = k) : u.sched.commit = k := (congrArg Schedule.commit hx).trans h
    have isnt {k : CommitState} (h : x.commit ≠ k) : ¬u.sched.commit = k := by rwa [hx]
    have hnow : reached u.tb.counter u.sched.cat = reached s.tb.counter x.cat := by
      rw [hx, State.settled_tb]
    refine ⟨?_, ?_, ?_, fun hc => started (ok (op := commitNowOp) (if_pos (is hc))),
      fun hc => busy (op := commitNowOp) (if_neg (isnt hc)),
      fun hc hreach => started (ok (op := commitAtOp) ((if_pos (is hc)).trans (if_pos (hnow.trans hreach)))),
      fun hc hreach => ok (op := commitAtOp) (((if_pos (is hc)).trans (if_neg ?_)).trans ?_),
      fun hc => busy (op := commitAtOp) (if_neg (isnt hc)),
      fun hc => ok (op := abortOp) ((if_pos (is hc)).trans ?_),
      fun hc => busy (op := abortOp) (if_neg (isnt hc)),
      fun i w => ⟨fun hc => ?_, fun hc => ⟨setTimeWord x.cat i w, fun j => timeWord_setTimeWord _ _ _ _, ?_⟩⟩⟩
    · rw [s.readAddr_eq 0x62 .sstat rfl hr]
      exact (congrArg (fun y => (Schedule.statusWord y).toNat) hx).trans (toNat_sstat x)
    · rw [s.readAddr_eq 0x63 .scount rfl hr]
      exact (congrArg (fun y : Schedule => (BitVec.ofNat 16 y.active.length).toNat) hx).trans (BitVec.toNat_ofNat _ _)
    · rw [s.readAddr_eq 0x66 (.cat 2) rfl hr, s.readAddr_eq 0x65 (.cat 1) rfl hr, s.readAddr_eq 0x64 (.cat 0) rfl hr]
      exact (timeWord_append u.sched.cat).trans (congrArg Schedule.cat hx)
    · rw [hnow, hreach]
      decide
    · rw [hx]
      rfl
    · rw [hx]
      rfl
    · rw [show BitVec.ofNat 8 (0x64 + i.val) = (Register.cat i).addr from rfl, exec_registerWrite_addr]
      exact hostWrite_error (op := catOp i w) hr (if_neg (isnt hc))
    · rw [show BitVec.ofNat 8 (0x64 + i.val) = (Register.cat i).addr from rfl, exec_registerWrite_addr]
      refine hostWrite_ok (op := catOp i w) hr ((if_pos (is hc)).trans ?_)
      change Except.ok (u.setSched { u.sched with cat := setTimeWord u.sched.cat i w }) = _
      rw [hx]
      rfl
  · have hdue : s.commitDue = true := by
      rw [State.commitDue, Bool.and_eq_true, beq_iff_eq]
      exact ⟨hc, hreach⟩
    exact starts_batch hst (congrArg Host.Outcome.next (State.whenTickDue_due ht hdue State.startApplying))
  · refine congrArg Host.Outcome.next ?_
    rcases h with h | h
    · exact State.whenTickDue_stopped h _ _
    · refine State.whenTickDue_notDue ?_ _
      rw [State.commitDue, Bool.and_eq_true, beq_iff_eq]
      rintro ⟨hc, hreach⟩
      rcases h with h | h
      · exact h hc
      · rw [h] at hreach
        cases hreach
  · have hdue : s.finishDue = true := by
      rw [State.finishDue, Bool.and_eq_true, beq_iff_eq, decide_eq_true_iff]
      exact ⟨hc, hp⟩
    refine congrArg Host.Outcome.next ((if_pos hdue).trans ((State.finishCommit_eq s).trans ?_))
    rw [hst]
  · refine congrArg Host.Outcome.next (if_neg ?_)
    rw [State.finishDue, Bool.and_eq_true, beq_iff_eq, decide_eq_true_iff]
    rintro ⟨hc, hp⟩
    rcases h with h | h
    · exact h hc
    · exact absurd hp (Nat.not_le.2 h)

/-! ### The staged operations (R158 to R161) -/

theorem State.insertNext_insert {s : State} {e : Entry} (h : s.nextOp = some (.insert e)) :
    s.insertNext = s.countOp (s.applyInsert e) := by
  unfold State.insertNext
  rw [h]

theorem State.cancelNext_cancel {s : State} {tag : Word} (h : s.nextOp = some (.cancel tag)) :
    s.cancelNext = s.countOp (s.applyCancel tag) := by
  unfold State.cancelNext
  rw [h]

theorem State.clearAllNext_clearAll {s : State} (h : s.nextOp = some .clearAll) :
    s.clearAllNext = s.countOp s.applyClearAll := by
  unfold State.clearAllNext
  rw [h]

theorem State.insertNext_other {s : State} (h : ∀ e, s.nextOp ≠ some (.insert e)) : s.insertNext = s := by
  unfold State.insertNext
  split
  · next e he => exact absurd he (h e)
  · rfl

theorem State.cancelNext_other {s : State} (h : ∀ tag, s.nextOp ≠ some (.cancel tag)) : s.cancelNext = s := by
  unfold State.cancelNext
  split
  · next tag he => exact absurd he (h tag)
  · rfl

theorem State.clearAllNext_other {s : State} (h : s.nextOp ≠ some .clearAll) : s.clearAllNext = s := by
  unfold State.clearAllNext
  split
  · next he => exact absurd he h
  · rfl

theorem Schedule.reentered_counts (x : Schedule) (now : Time) (e : Option Entry) :
    (x.reentered now e).progress = x.progress ∧ (x.reentered now e).applied = x.applied := by
  cases e <;> exact ⟨rfl, rfl⟩

/-- Every active entry that a removal takes away is one that it does not keep. -/
theorem length_sub_filter {α : Type} (p : α → Bool) (xs : List α) :
    xs.length - (xs.filter fun a => !p a).length = (xs.filter p).length := by
  have := List.length_eq_length_filter_add (l := xs) p
  omega

/-- Settles O47. -/
theorem stagedOperationsAreApplied : Obligations.StagedOperationsAreApplied := by
  intro s x now next refused counted
  refine ⟨fun h => congrArg Host.Outcome.next (State.insertNext_other h),
    fun h => congrArg Host.Outcome.next (State.cancelNext_other h),
    fun h => congrArg Host.Outcome.next (State.clearAllNext_other h), fun e he => ?_, fun tag ht => ?_, fun hc => ?_⟩
  · have inserted {r : Except OpRefusal State} (h : s.applyInsert e = r) : exec .insert s = .next (s.countOp r) :=
      congrArg Host.Outcome.next ((State.insertNext_insert he).trans (congrArg s.countOp h))
    have room (h : x.active.length < 256) : ¬256 ≤ s.sched.active.length := by
      change ¬256 ≤ x.active.length
      omega
    have ahead (h : reached now e.due = false) : ¬reached s.tb.counter e.due = true := by
      change ¬reached now e.due = true
      rw [h]
      decide
    refine ⟨fun hfull => inserted (if_pos hfull),
      fun hroom hr hl => inserted (r := .error .past)
        ((if_neg (room hroom)).trans ((if_pos hr).trans (by rw [hl]))),
      fun hroom hr hfar => inserted ((if_neg (room hroom)).trans ((if_neg (ahead hr)).trans (if_pos hfar))),
      fun hroom hr hnear => inserted ((if_neg (room hroom)).trans ((if_neg (ahead hr)).trans
        (if_neg (Nat.not_lt.2 hnear)))), fun hroom hr hl => ?_⟩
    intro st h t
    have hlate : s.fireLate e = h := by
      unfold State.fireLate
      rw [State.eventStamp_eq]
      rfl
    have happly : s.applyInsert e = .ok h :=
      ((if_neg (room hroom)).trans ((if_pos hr).trans (by rw [hl]))).trans (congrArg Except.ok hlate)
    have hsched : h.sched.progress = x.progress ∧ h.sched.applied = x.applied := by
      rw [show h.sched = _ from State.fireEntry_sched _ e true false st]
      exact Schedule.reentered_counts _ _ _
    have hclaims := congrArg State.claims
      (State.fireEntry_eq { s with sched := { x with nextOrder := x.nextOrder + 1 } } e true false st)
    refine ⟨(inserted happly).trans ?_, fun hrep => hclaims.trans (if_neg (by rw [hrep]; decide)),
      fun hrep => ⟨_, hclaims.trans (if_pos hrep), rfl, rfl, rfl, rfl, rfl, rfl, ?_⟩⟩
    · change Host.Outcome.next (h.setSched { h.sched with
        progress := h.sched.progress + 1, applied := min (h.sched.applied + 1) 255 }) = _
      rw [hsched.1, hsched.2]
      rfl
    · obtain ⟨hcount, h8, h9, h10, h11, h12, -⟩ := actionDetail_fields (e.afterDue now).1 true false
        (s.blockedFor .schedule e.mask) s.frozen (e.afterDue now).2.isNone
      refine ⟨hcount, h8, h9, ?_, h11, ?_⟩
      · exact (iff_of_eq (congrArg (· = true) h10)).trans (s.blockedFor_iff .schedule e.mask)
      · exact (iff_of_eq (congrArg (· = true) h12)).trans Option.isNone_iff_eq_none
  · have cancelled {r : Except OpRefusal State} (h : s.applyCancel tag = r) :
        exec .cancelOperation s = .next (s.countOp r) :=
      congrArg Host.Outcome.next ((State.cancelNext_cancel ht).trans (congrArg s.countOp h))
    refine ⟨fun hno => cancelled (if_neg (by simpa using hno)), fun hyes => ?_⟩
    refine (cancelled (if_pos (by simpa using hyes))).trans ?_
    rw [← length_sub_filter (fun a : Active => a.entry.tag == tag) x.active]
    rfl
  · exact congrArg Host.Outcome.next (State.clearAllNext_clearAll hc)

end Sys2Proof.Machine
end

section
/-!
PROOFS. The fields of the table entries, taken from the words of the buffer, and the commands that take them.
Settles O45, O51.
-/
namespace Sys2Proof.Machine
-- Declarations in order: a worker that waits for the kernel holds 1 GiB of the check's memory.
set_option Elab.async false

/-! ### The words of a buffer as numbers -/

/-- Word j of a buffer. -/
def wordAt (b : Buffer) (j : Fin 16) : Nat := (b.get j).toNat

/-- A field in two words, the first the less significant. -/
def wideAt (b : Buffer) (j k : Fin 16) : Nat := wordAt b j + 65536 * wordAt b k

/-- Bit k of word j. -/
def bitOf (b : Buffer) (j : Fin 16) (k : Nat) : Bool := decide (wordAt b j / 2 ^ k % 2 = 1)

theorem getLsbD_get (b : Buffer) (j : Fin 16) (k : Nat) : (b.get j).getLsbD k = bitOf b j k :=
  Nat.testBit_eq_decide_div_mod_eq

theorem toNat_field_get (b : Buffer) (j : Fin 16) (k n : Nat) :
    ((b.get j).extractLsb' k n).toNat = wordAt b j / 2 ^ k % 2 ^ n := toNat_field _ k n

theorem wordAt_lt (b : Buffer) (j : Fin 16) : wordAt b j < 65536 := (b.get j).isLt

theorem toNat_two_words (b : Buffer) (j k : Fin 16) : (b.get k ++ b.get j : BitVec 32).toNat = wideAt b j k := by
  refine (toNat_append_fields (b.get k) (b.get j)).trans ?_
  rw [Nat.add_comm]
  rfl

theorem field24_iff {lo hi : Word} {v : BitVec 24} :
    field24 lo hi = some v ↔ v.toNat = lo.toNat + 65536 * hi.toNat := by
  have hhi : (hi.extractLsb' 8 8 = 0) ↔ hi.toNat < 256 := by
    rw [← BitVec.toNat_inj, toNat_field]
    have := hi.isLt
    constructor <;> intro h <;> simp at h ⊢ <;> omega
  have hv := v.isLt
  unfold field24
  split
  · next h =>
    have hcat : (hi.extractLsb' 0 8 ++ lo : BitVec 24).toNat = lo.toNat + 65536 * hi.toNat := by
      have := hhi.1 h
      rw [toNat_append_fields, toNat_field]
      omega
    rw [Option.some_inj, ← BitVec.toNat_inj, hcat, eq_comm]
  · next h =>
    rw [hhi] at h
    simp only [reduceCtorEq, false_iff]
    omega

theorem field24Pos_iff {lo hi : Word} {v : BitVec 24} :
    field24Pos lo hi = some v ↔ v.toNat = lo.toNat + 65536 * hi.toNat ∧ v ≠ 0 := by
  rw [← field24_iff]
  unfold field24Pos
  cases field24 lo hi with
  | none => simp
  | some w =>
    by_cases hw : w = 0
    · simp only [hw, if_true, reduceCtorEq, Option.some_inj, false_iff]
      rintro ⟨rfl, h⟩
      exact h rfl
    · simp only [hw, if_false, Option.some_inj]
      constructor
      · rintro rfl
        exact ⟨rfl, hw⟩
      · exact And.left

theorem exists_toNat {n x : Nat} (h : x < 2 ^ n) : ∃ v : BitVec n, v.toNat = x := ⟨BitVec.ofNat n x, by simp [Nat.mod_eq_of_lt h]⟩

/-! ### A line entry (R22) -/

def EdgeSelect.number : EdgeSelect → Nat
  | .rise => 1
  | .fall => 2
  | .both => 3

theorem EdgeSelect.ofCode_iff {c : BitVec 2} {e : EdgeSelect} : EdgeSelect.ofCode c = some e ↔ e.number = c.toNat := by
  revert c
  cases e <;> decide

/-- The number of a two-bit code with the value 0 left over names an edge select. -/
theorem EdgeSelect.exists_number {n : Nat} (h : n ≠ 0) (h4 : n < 4) : ∃ e : EdgeSelect, e.number = n := by
  match n with
  | 1 => exact ⟨.rise, rfl⟩
  | 2 => exact ⟨.fall, rfl⟩
  | 3 => exact ⟨.both, rfl⟩

/-- The buffer spells the configuration of a line. -/
structure LineSpelt (b : Buffer) (c : LineConfig) : Prop where
  on : c.on = bitOf b 0 0
  edge : c.edge.number = wordAt b 0 / 2 % 4
  urgent : c.urgent = bitOf b 0 3
  filter : c.filter.toNat = wordAt b 0 / 16 % 16
  chatterLimit : c.chatterLimit.toNat = wordAt b 0 / 256
  chatterWindow : c.chatterWindow.toNat = wideAt b 1 2
  quietTime : c.quietTime.toNat = wideAt b 3 4
  window_pos : c.chatterWindow ≠ 0
  quiet_pos : c.quietTime ≠ 0

theorem lineFields_iff {b : Buffer} {c : LineConfig} : lineFields b = some c ↔ LineSpelt b c := by
  have hword := wordAt_lt b 0
  simp only [lineFields, Option.bind_eq_bind, Option.bind_eq_some_iff, EdgeSelect.ofCode_iff, field24Pos_iff,
    toNat_field_get, getLsbD_get, lineOn]
  constructor
  · rintro ⟨edge, hedge, window, ⟨hwindow, hwpos⟩, quiet, ⟨hquiet, hqpos⟩, h⟩
    cases h
    exact ⟨rfl, hedge, rfl, toNat_field_get b 0 4 4, (toNat_field_get b 0 8 8).trans (by omega), hwindow, hquiet, hwpos,
      hqpos⟩
  · rintro ⟨hon, hedge, hurgent, hfilter, hlimit, hwindow, hquiet, hwpos, hqpos⟩
    refine ⟨c.edge, hedge, c.chatterWindow, ⟨hwindow, hwpos⟩, c.quietTime, ⟨hquiet, hqpos⟩, ?_⟩
    have hf : (b.get 0).extractLsb' 4 4 = c.filter := BitVec.eq_of_toNat_eq ((toNat_field_get b 0 4 4).trans hfilter.symm)
    have hl : (b.get 0).extractLsb' 8 8 = c.chatterLimit :=
      BitVec.eq_of_toNat_eq ((toNat_field_get b 0 8 8).trans (by omega))
    rw [hf, hl, ← hon, ← hurgent]
    rfl

/-- The fields of a line entry that have a range lie in it. -/
def LineInRange (b : Buffer) : Prop :=
  wordAt b 0 / 2 % 4 ≠ 0 ∧ wideAt b 1 2 ≠ 0 ∧ wideAt b 1 2 ≤ 16777215 ∧ wideAt b 3 4 ≠ 0 ∧ wideAt b 3 4 ≤ 16777215

theorem bitVec_ne_zero_iff {n : Nat} {v : BitVec n} : v ≠ 0 ↔ v.toNat ≠ 0 := by
  rw [ne_eq, ← BitVec.toNat_inj]
  simp

theorem LineSpelt.inRange {b : Buffer} {c : LineConfig} (h : LineSpelt b c) : LineInRange b := by
  have hw := bitVec_ne_zero_iff.1 h.window_pos
  have hq := bitVec_ne_zero_iff.1 h.quiet_pos
  have hwlt := c.chatterWindow.isLt
  have hqlt := c.quietTime.isLt
  rw [h.chatterWindow] at hw hwlt
  rw [h.quietTime] at hq hqlt
  refine ⟨?_, hw, by omega, hq, by omega⟩
  rw [← h.edge]
  cases c.edge <;> decide

theorem exists_lineSpelt {b : Buffer} (h : LineInRange b) : ∃ c, LineSpelt b c := by
  obtain ⟨hedge, hw0, hw, hq0, hq⟩ := h
  have hword := wordAt_lt b 0
  obtain ⟨edge, he⟩ := EdgeSelect.exists_number hedge (by omega)
  obtain ⟨window, hwindow⟩ := exists_toNat (n := 24) (x := wideAt b 1 2) (by omega)
  obtain ⟨quiet, hquiet⟩ := exists_toNat (n := 24) (x := wideAt b 3 4) (by omega)
  obtain ⟨filter, hfilter⟩ := exists_toNat (n := 4) (x := wordAt b 0 / 16 % 16) (by omega)
  obtain ⟨limit, hlimit⟩ := exists_toNat (n := 8) (x := wordAt b 0 / 256) (by omega)
  exact ⟨⟨bitOf b 0 0, edge, filter, bitOf b 0 3, limit, window, quiet⟩, rfl, he, rfl, hfilter, hlimit, hwindow, hquiet,
    bitVec_ne_zero_iff.2 (by rwa [hwindow]), bitVec_ne_zero_iff.2 (by rwa [hquiet])⟩

/-! ### A slot (R105) -/

def TriggerEdge.number : TriggerEdge → Nat
  | .rise => 1
  | .fall => 2
  | .either => 3

theorem TriggerEdge.ofCode_iff {c : BitVec 2} {e : TriggerEdge} :
    TriggerEdge.ofCode c = some e ↔ e.number = c.toNat := by
  revert c
  cases e <;> decide

theorem TriggerEdge.exists_number {n : Nat} (h : n ≠ 0) (h4 : n < 4) : ∃ e : TriggerEdge, e.number = n := by
  match n with
  | 1 => exact ⟨.rise, rfl⟩
  | 2 => exact ⟨.fall, rfl⟩
  | 3 => exact ⟨.either, rfl⟩

def Retrigger.number : Retrigger → Nat
  | .ignore => 0
  | .restart => 1
  | .extend => 2

theorem Retrigger.ofCode_iff {c : BitVec 2} {e : Retrigger} : Retrigger.ofCode c = some e ↔ e.number = c.toNat := by
  revert c
  cases e <;> decide

theorem Retrigger.exists_number {n : Nat} (h : n < 3) : ∃ e : Retrigger, e.number = n := by
  match n with
  | 0 => exact ⟨.ignore, rfl⟩
  | 1 => exact ⟨.restart, rfl⟩
  | 2 => exact ⟨.extend, rfl⟩

/-- The gate of a slot, which is absent where its bit is 0. -/
def GateSpelt (b : Buffer) : Option Gate → Prop
  | none => bitOf b 0 8 = false
  | some g => bitOf b 0 8 = true ∧ g.line.val = wordAt b 0 / 512 % 64 ∧ g.level = bitOf b 0 15

theorem gateFields_iff {b : Buffer} {g : Option Gate} :
    (if bitOf b 0 8 then some (⟨((b.get 0).extractLsb' 9 6).toFin, bitOf b 0 15⟩ : Gate) else none) = g ↔
      GateSpelt b g := by
  cases hb : bitOf b 0 8 with
  | false => cases g <;> simp [GateSpelt, hb]
  | true =>
    cases g with
    | none => simp [GateSpelt, hb]
    | some g =>
      obtain ⟨line, level⟩ := g
      have hline : ((b.get 0).extractLsb' 9 6).toFin = line ↔ line.val = wordAt b 0 / 512 % 64 := by
        rw [Fin.ext_iff, eq_comm, show (((b.get 0).extractLsb' 9 6).toFin : Fin (2 ^ 6)).val = wordAt b 0 / 512 % 64 from
          toNat_field_get b 0 9 6]
      simp only [GateSpelt, hb, if_true, Option.some_inj, Gate.mk.injEq, true_and, hline]
      exact and_congr_right fun _ => eq_comm

/-- The buffer spells the configuration of a slot. -/
structure SlotSpelt (b : Buffer) (c : SlotConfig) : Prop where
  trigger : c.trigger.val = wordAt b 0 % 64
  edge : c.edge.number = wordAt b 0 / 64 % 4
  gate : GateSpelt b c.gate
  delay : c.delay.toNat = wideAt b 1 2
  width : c.width.toNat = wideAt b 3 4
  mask : c.mask.toNat = wideAt b 5 6
  policy : c.policy.number = wordAt b 7 % 4
  report : c.report = bitOf b 7 2
  countLimit : c.countLimit.toNat = wordAt b 7 / 256

theorem slotFields_iff {b : Buffer} {c : SlotConfig} : slotFields b = some c ↔ SlotSpelt b c := by
  have hword := wordAt_lt b 7
  have htrigger : (((b.get 0).extractLsb' 0 6).toFin : Fin (2 ^ 6)).val = wordAt b 0 % 64 :=
    (toNat_field_get b 0 0 6).trans (by rw [Nat.pow_zero, Nat.div_one]; rfl)
  simp only [slotFields, Option.bind_eq_bind, Option.bind_eq_some_iff, TriggerEdge.ofCode_iff, field24_iff,
    Retrigger.ofCode_iff, toNat_field_get, getLsbD_get, Nat.pow_zero, Nat.div_one]
  constructor
  · rintro ⟨edge, hedge, delay, hdelay, width, hwidth, policy, hpolicy, h⟩
    cases h
    exact ⟨htrigger, hedge, gateFields_iff.1 rfl, hdelay, hwidth, toNat_two_words b 5 6, hpolicy, rfl,
      (toNat_field_get b 7 8 8).trans (by omega)⟩
  · rintro ⟨ht, hedge, hgate, hdelay, hwidth, hmask, hpolicy, hreport, hlimit⟩
    refine ⟨c.edge, hedge, c.delay, hdelay, c.width, hwidth, c.policy, hpolicy, ?_⟩
    have hl : (b.get 7).extractLsb' 8 8 = c.countLimit :=
      BitVec.eq_of_toNat_eq ((toNat_field_get b 7 8 8).trans (by omega))
    have hm : (b.get 6 ++ b.get 5 : BitVec 32) = c.mask := BitVec.eq_of_toNat_eq ((toNat_two_words b 5 6).trans hmask.symm)
    have htr : (((b.get 0).extractLsb' 0 6).toFin : Fin (2 ^ 6)) = c.trigger := Fin.ext (htrigger.trans ht.symm)
    rw [hl, hm, htr, gateFields_iff.2 hgate, ← hreport]
    rfl

/-- The fields of a slot that have a range lie in it. -/
def SlotInRange (b : Buffer) : Prop :=
  wordAt b 0 / 64 % 4 ≠ 0 ∧ wideAt b 1 2 ≤ 16777215 ∧ wideAt b 3 4 ≤ 16777215 ∧ wordAt b 7 % 4 ≠ 3

theorem SlotSpelt.inRange {b : Buffer} {c : SlotConfig} (h : SlotSpelt b c) : SlotInRange b := by
  have hd := c.delay.isLt
  have hw := c.width.isLt
  rw [h.delay] at hd
  rw [h.width] at hw
  refine ⟨?_, by omega, by omega, ?_⟩
  · rw [← h.edge]
    cases c.edge <;> decide
  · rw [← h.policy]
    cases c.policy <;> decide

theorem exists_slotSpelt {b : Buffer} (h : SlotInRange b) : ∃ c, SlotSpelt b c := by
  obtain ⟨hedge, hd, hw, hp⟩ := h
  have hword := wordAt_lt b 7
  obtain ⟨edge, he⟩ := TriggerEdge.exists_number hedge (by omega)
  obtain ⟨policy, hpolicy⟩ := Retrigger.exists_number (n := wordAt b 7 % 4) (by omega)
  obtain ⟨delay, hdelay⟩ := exists_toNat (n := 24) (x := wideAt b 1 2) (by omega)
  obtain ⟨width, hwidth⟩ := exists_toNat (n := 24) (x := wideAt b 3 4) (by omega)
  obtain ⟨limit, hlimit⟩ := exists_toNat (n := 8) (x := wordAt b 7 / 256) (by omega)
  exact ⟨⟨⟨wordAt b 0 % 64, by omega⟩, edge, _, delay, width, b.get 6 ++ b.get 5, policy, limit, bitOf b 7 2⟩, rfl, he,
    gateFields_iff.1 rfl, hdelay, hwidth, toNat_two_words b 5 6, hpolicy, rfl, hlimit⟩

/-! ### An output entry (R88) and a quota (R52) -/

def Owner.number : Owner → Nat
  | .host => 0
  | .schedule => 1
  | .reflex => 2

theorem Owner.exists_number {n : Nat} (h : n < 3) : ∃ o : Owner, o.number = n := by
  match n with
  | 0 => exact ⟨.host, rfl⟩
  | 1 => exact ⟨.schedule, rfl⟩
  | 2 => exact ⟨.reflex, rfl⟩

/-- The buffer spells an output entry. -/
structure OutSpelt (b : Buffer) (e : OutEntry) : Prop where
  owner : e.owner.number = wordAt b 0 % 4
  safe : e.safe = bitOf b 0 4
  drive : e.drive = bitOf b 0 5

theorem outFields_iff {b : Buffer} {e : OutEntry} : outFields b = some e ↔ OutSpelt b e := by
  have hcode : ((b.get 0).extractLsb' 0 2).toNat = wordAt b 0 % 4 :=
    (toNat_field_get b 0 0 2).trans (by rw [Nat.pow_zero, Nat.div_one]; rfl)
  obtain ⟨owner, safe, drive⟩ := e
  have hspelt : OutSpelt b ⟨owner, safe, drive⟩ ↔
      owner.number = wordAt b 0 % 4 ∧ safe = bitOf b 0 4 ∧ drive = bitOf b 0 5 :=
    ⟨fun h => ⟨h.owner, h.safe, h.drive⟩, fun ⟨h, h', h''⟩ => ⟨h, h', h''⟩⟩
  rw [hspelt]
  unfold outFields
  simp only [hcode, getLsbD_get]
  have hlt : wordAt b 0 % 4 < 4 := Nat.mod_lt _ (by decide)
  generalize wordAt b 0 % 4 = n at hlt
  match n with
  | 0 | 1 | 2 | 3 => cases owner <;> simp [Owner.number, eq_comm]

/-- The quota that the buffer spells. -/
def quotaOf (b : Buffer) : Quota where
  reserve := b.get 0
  limit := b.get 1
  policy := if wordAt b 2 % 4 = 0 then .dropNew else .dropOldest
  threshold := b.get 3
  age := b.get 4

/-- The fields of the quota of group g lie in their ranges. -/
def QuotaInRange (g : GroupNo) (b : Buffer) : Prop :=
  wordAt b 0 ≤ 512 ∧ (g = 8 → 8 ≤ wordAt b 0) ∧ 1 ≤ wordAt b 1 ∧ wordAt b 1 ≤ 512 ∧ wordAt b 0 ≤ wordAt b 1 ∧
    wordAt b 2 % 4 ≤ 1 ∧ 1 ≤ wordAt b 3 ∧ wordAt b 3 ≤ 64

theorem quotaFields_iff {g : GroupNo} {b : Buffer} {q : Quota} :
    quotaFields g b = some q ↔ QuotaInRange g b ∧ q = quotaOf b := by
  have hcode : ((b.get 2).extractLsb' 0 2).toNat = wordAt b 2 % 4 :=
    (toNat_field_get b 2 0 2).trans (by rw [Nat.pow_zero, Nat.div_one]; rfl)
  have hlt : wordAt b 2 % 4 < 4 := Nat.mod_lt _ (by decide)
  unfold quotaFields QuotaInRange quotaOf
  simp only [hcode]
  generalize wordAt b 2 % 4 = n at hlt
  match n with
  | 0 | 1 =>
    refine Option.ite_none_right_eq_some.trans ?_
    constructor
    · rintro ⟨⟨h0, h1, h2, h3, h4, h5, h6⟩, hq⟩
      exact ⟨⟨h0, h6, h1, h2, h3, by decide, h4, h5⟩, (Option.some.inj hq).symm⟩
    · rintro ⟨⟨h0, h6, h1, h2, h3, -, h4, h5⟩, rfl⟩
      exact ⟨⟨h0, h1, h2, h3, h4, h5, h6⟩, rfl⟩
  | 2 | 3 => simp

/-! ### A schedule entry (R151) -/

/-- The action that the code and the value words of an entry name. -/
def Action.Spelt (code value : Nat) : Action → Prop
  | .set => code = 0
  | .clear => code = 1
  | .toggle => code = 2
  | .write v => code = 3 ∧ v.toNat = value

theorem actionOf_iff {c : BitVec 3} {v : BitVec 32} {a : Action} : actionOf c v = some a ↔ a.Spelt c.toNat v.toNat := by
  have hc := c.isLt
  unfold actionOf
  generalize c.toNat = n at hc
  match n with
  | 0 | 1 | 2 => cases a <;> simp [Action.Spelt]
  | 3 => cases a <;> simp [Action.Spelt, ← BitVec.toNat_inj, eq_comm]
  | 4 | 5 | 6 | 7 => cases a <;> simp [Action.Spelt]

theorem exists_action {code : Nat} (h : code ≤ 3) (v : BitVec 32) : ∃ a : Action, a.Spelt code v.toNat := by
  match code with
  | 0 => exact ⟨.set, rfl⟩
  | 1 => exact ⟨.clear, rfl⟩
  | 2 => exact ⟨.toggle, rfl⟩
  | 3 => exact ⟨.write v, rfl, rfl⟩

/-- The repeat of an entry, which is absent where its bit is 0. -/
def RepSpelt (present : Bool) (period count : Nat) : Option Rep → Prop
  | none => present = false
  | some r => present = true ∧ r.period.toNat = period ∧ r.count.toNat = count ∧ r.period ≠ 0

theorem repOf_iff {present : Bool} {p : BitVec 32} {n : Word} {r : Option Rep} :
    repOf present p n = some r ↔ RepSpelt present p.toNat n.toNat r := by
  unfold repOf
  cases present with
  | false => cases r <;> simp [RepSpelt]
  | true =>
    cases r with
    | none => simp [RepSpelt]
    | some r =>
      obtain ⟨period, count⟩ := r
      by_cases hp : p = 0
      · have hno : ¬(period = p ∧ period ≠ 0) := fun h => h.2 (h.1.trans hp)
        simp only [RepSpelt, hp, BitVec.toNat_inj]
        simpa [hp] using fun h _ => h
      · simp only [RepSpelt, hp, BitVec.toNat_inj, Bool.not_true, Bool.false_eq_true, if_false, Option.some_inj,
          Rep.mk.injEq, true_and]
        constructor
        · rintro ⟨rfl, rfl⟩
          exact ⟨rfl, rfl, hp⟩
        · rintro ⟨rfl, rfl, -⟩
          exact ⟨rfl, rfl⟩

def LatePolicy.number : LatePolicy → Nat
  | .fire => 0
  | .skip => 1

theorem latePolicyOf_iff {c : BitVec 2} {l : LatePolicy} : latePolicyOf c = some l ↔ l.number = c.toNat := by
  revert c
  cases l <;> decide

theorem LatePolicy.exists_number {n : Nat} (h : n ≤ 1) : ∃ l : LatePolicy, l.number = n := by
  match n with
  | 0 => exact ⟨.fire, rfl⟩
  | 1 => exact ⟨.skip, rfl⟩

/-- The buffer spells a schedule entry. -/
structure EntrySpelt (b : Buffer) (e : Entry) : Prop where
  due : e.due.toNat = wordAt b 0 + 65536 * wordAt b 1 + 4294967296 * wordAt b 2
  tag : e.tag = b.get 3
  action : e.action.Spelt (wordAt b 4 % 8) (wideAt b 7 8)
  mask : e.mask.toNat = wideAt b 5 6
  rep : RepSpelt (bitOf b 4 4) (wideAt b 9 10) (wordAt b 11) e.rep
  report : e.report = bitOf b 4 5
  late : e.late.number = wordAt b 4 / 64 % 4
  tag_pos : e.tag ≠ 0
  mask_pos : e.mask ≠ 0

theorem toNat_three_words (b : Buffer) (i j k : Fin 16) : (b.get k ++ b.get j ++ b.get i : BitVec 48).toNat =
    wordAt b i + 65536 * wordAt b j + 4294967296 * wordAt b k := by
  refine (toNat_append_fields (b.get k ++ b.get j) (b.get i)).trans ?_
  rw [toNat_two_words]
  unfold wideAt wordAt
  omega

theorem entryFields_iff {b : Buffer} {e : Entry} : entryFields b = some e ↔ EntrySpelt b e := by
  have hcode : wordAt b 4 / 2 ^ 0 % 2 ^ 3 = wordAt b 4 % 8 := by rw [Nat.pow_zero, Nat.div_one]; rfl
  simp only [entryFields, Option.bind_eq_bind, Option.bind_eq_some_iff, actionOf_iff, repOf_iff, latePolicyOf_iff,
    toNat_field_get, getLsbD_get, toNat_two_words, hcode, Option.ite_none_left_eq_some, Option.some_inj, not_or]
  constructor
  · rintro ⟨action, haction, rep, hrep, late, hlate, ⟨htag, hmask⟩, rfl⟩
    exact ⟨toNat_three_words b 0 1 2, rfl, haction, toNat_two_words b 5 6, hrep, rfl, hlate, htag, hmask⟩
  · rintro ⟨hdue, htag, haction, hmask, hrep, hreport, hlate, htpos, hmpos⟩
    have hd : (b.get 2 ++ b.get 1 ++ b.get 0 : BitVec 48) = e.due :=
      BitVec.eq_of_toNat_eq ((toNat_three_words b 0 1 2).trans hdue.symm)
    have hm : (b.get 6 ++ b.get 5 : BitVec 32) = e.mask := BitVec.eq_of_toNat_eq ((toNat_two_words b 5 6).trans hmask.symm)
    refine ⟨e.action, haction, e.rep, hrep, e.late, hlate, ?_⟩
    rw [hd, hm, ← htag, ← hreport]
    exact ⟨⟨htpos, hmpos⟩, rfl⟩

/-- The fields of a schedule entry that have a range lie in it. -/
def EntryInRange (b : Buffer) : Prop :=
  wordAt b 3 ≠ 0 ∧ wordAt b 4 % 8 ≤ 3 ∧ (wordAt b 5 ≠ 0 ∨ wordAt b 6 ≠ 0) ∧ wordAt b 4 / 64 % 4 ≤ 1 ∧
    (wordAt b 4 / 16 % 2 = 1 → wordAt b 9 ≠ 0 ∨ wordAt b 10 ≠ 0)

theorem EntrySpelt.inRange {b : Buffer} {e : Entry} (h : EntrySpelt b e) : EntryInRange b := by
  have htag := bitVec_ne_zero_iff.1 h.tag_pos
  have hmask := bitVec_ne_zero_iff.1 h.mask_pos
  rw [h.tag] at htag
  rw [h.mask] at hmask
  unfold wideAt at hmask
  refine ⟨htag, ?_, by omega, ?_, fun hr => ?_⟩
  · have := h.action
    revert this
    cases e.action <;> simp only [Action.Spelt] <;> omega
  · rw [← h.late]
    cases e.late <;> decide
  · have hrep := h.rep
    have hbit : bitOf b 4 4 = true := decide_eq_true hr
    cases hc : e.rep with
    | none =>
      rw [hc] at hrep
      rw [show bitOf b 4 4 = false from hrep] at hbit
      cases hbit
    | some r =>
      rw [hc] at hrep
      obtain ⟨-, hp, -, hpos⟩ := hrep
      have := bitVec_ne_zero_iff.1 hpos
      unfold wideAt at hp
      omega

theorem exists_entrySpelt {b : Buffer} (h : EntryInRange b) : ∃ e, EntrySpelt b e := by
  obtain ⟨htag, hcode, hmask, hlate, hrep⟩ := h
  obtain ⟨action, haction⟩ := exists_action hcode (b.get 8 ++ b.get 7)
  rw [toNat_two_words] at haction
  obtain ⟨late, hl⟩ := LatePolicy.exists_number hlate
  obtain ⟨rep, hr⟩ : ∃ rep, RepSpelt (bitOf b 4 4) (wideAt b 9 10) (wordAt b 11) rep := by
    cases hb : bitOf b 4 4 with
    | false => exact ⟨none, rfl⟩
    | true =>
      have hp := hrep (of_decide_eq_true hb)
      refine ⟨some ⟨b.get 10 ++ b.get 9, b.get 11⟩, rfl, toNat_two_words b 9 10, rfl, bitVec_ne_zero_iff.2 ?_⟩
      change (b.get 10 ++ b.get 9 : BitVec 32).toNat ≠ 0
      rw [toNat_two_words]
      unfold wideAt
      omega
  refine ⟨⟨b.get 2 ++ b.get 1 ++ b.get 0, b.get 3, action, b.get 6 ++ b.get 5, rep, bitOf b 4 5, late⟩,
    toNat_three_words b 0 1 2, rfl, haction, toNat_two_words b 5 6, hr, rfl, hl, bitVec_ne_zero_iff.2 htag,
    bitVec_ne_zero_iff.2 ?_⟩
  change (b.get 6 ++ b.get 5 : BitVec 32).toNat ≠ 0
  rw [toNat_two_words]
  unfold wideAt
  omega

/-! ### The staging commands (R149, R151 to R153, R198) -/

/-- A command that appends an operation: commit state, room, range, and the operation behind the others. -/
theorem exec_stage {c : Instr} {a : Addr} {s : State} {f : State → Except RefCode State} {o : Option StagedOp}
    {inRange : Prop} {P : StagedOp → Prop} (hr : s.inReset = false) (hc : exec c s = hostWrite a f s)
    (hf : f s.settled = stageOp o s.settled) (hno : ¬inRange → o = none) (hyes : inRange → ∃ p, P p ∧ o = some p) :
    (s.sched.commit ≠ .open_ → exec c s = .next (s.settled.refuse .busy a)) ∧
    (s.sched.commit = .open_ → 64 ≤ s.sched.staging.length → exec c s = .next (s.settled.refuse .full a)) ∧
    (s.sched.commit = .open_ → s.sched.staging.length < 64 → ¬inRange →
      exec c s = .next (s.settled.refuse .range a)) ∧
    (s.sched.commit = .open_ → s.sched.staging.length < 64 → inRange → ∃ p, P p ∧
      exec c s = .next { s.settled with sched := { s.sched with staging := s.sched.staging ++ [p] } }) := by
  have ok {t : State} (h : stageOp o s.settled = .ok t) : exec c s = .next t :=
    hc.trans (hostWrite_ok hr (hf.trans h))
  have no {e : RefCode} (h : stageOp o s.settled = .error e) : exec c s = .next (s.settled.refuse e a) :=
    hc.trans (hostWrite_error hr (hf.trans h))
  have opened (h : s.sched.commit = .open_) : ¬s.settled.sched.commit ≠ .open_ := by
    rw [State.settled_sched]
    exact not_not_intro h
  have room (h : s.sched.staging.length < 64) : ¬Config.stagingMax ≤ s.settled.sched.staging.length := by
    rw [State.settled_sched]
    exact Nat.not_le.2 h
  refine ⟨fun h => no (if_pos (by rwa [State.settled_sched])),
    fun h hl => no ((if_neg (opened h)).trans (if_pos (by rwa [State.settled_sched]))),
    fun h hl hi => no ((if_neg (opened h)).trans ((if_neg (room hl)).trans (by rw [hno hi]))), fun h hl hi => ?_⟩
  obtain ⟨p, hp, ho⟩ := hyes hi
  refine ⟨p, hp, ok ((if_neg (opened h)).trans ((if_neg (room hl)).trans ?_))⟩
  rw [ho, State.settled_sched]
  rfl

theorem EntrySpelt.late_eq {b : Buffer} {e : Entry} (h : EntrySpelt b e) :
    e.late = if wordAt b 4 / 64 % 4 = 1 then .skip else .fire := by
  rw [← h.late]
  cases e.late <;> rfl

/-- Settles O45. -/
theorem stagingCommands : Obligations.StagingCommands := by
  intro s hr u x word appends repeats
  have hx : u.sched = x := State.settled_sched s
  have hsel {k : TableSel} (h : s.tsel = k) : u.tsel = k := (State.settled_tsel s).trans h
  have refused {e : RefCode} (h : appendOp u = .error e) : exec .append s = .next (u.refuse e 0x72) :=
    hostWrite_error (a := 0x72) (op := appendOp) hr h
  have hcancel : cancelOp u = stageOp (if x.sarg = 0 then none else some (.cancel x.sarg)) u := by
    rw [← hx]
    rfl
  refine ⟨exec_stage (f := cancelOp) hr rfl hcancel (fun h => if_pos (not_not.1 h)) (fun h => ⟨_, rfl, if_neg h⟩),
    exec_stage (f := clearAllOp) hr rfl rfl (fun h => absurd trivial h) (fun _ => ⟨_, rfl, rfl⟩), fun ht => ?_,
    fun ht => refused ?_, fun ht => refused ?_, fun h => ?_, fun h => ?_⟩
  · have hop : appendOp u = stageOp ((entryFields s.tdata).map .insert) u := by
      unfold appendOp
      rw [hsel ht, State.settled_tdata]
    refine exec_stage (f := appendOp) hr rfl hop (fun h => ?_) (fun h => ?_)
    · refine Option.map_eq_none_iff.2 (Option.eq_none_iff_forall_ne_some.2 fun e he => h ?_)
      exact (entryFields_iff.1 he).inRange
    · obtain ⟨e, he⟩ := exists_entrySpelt h
      refine ⟨.insert e, ⟨e, rfl, he.due, congrArg BitVec.toNat he.tag, he.action, he.mask, ?_, he.report, he.late_eq⟩,
        by rw [entryFields_iff.2 he]; rfl⟩
      have hrep := he.rep
      cases hc : e.rep with
      | none =>
        rw [hc] at hrep
        exact of_decide_eq_false hrep
      | some r =>
        rw [hc] at hrep
        obtain ⟨hbit, hperiod, hcount, -⟩ := hrep
        exact ⟨of_decide_eq_true hbit, hperiod, hcount⟩
  · unfold appendOp
    rw [hsel ht]
  · unfold appendOp
    rcases ht with ht | ht | ht | ht <;> rw [hsel ht]
  · refine hostWrite_ok (a := 0x60) (op := discardOp) hr ((if_pos (by rwa [State.settled_sched])).trans ?_)
    rw [State.settled_sched]
    rfl
  · exact hostWrite_error (a := 0x60) (op := discardOp) hr (if_neg (by rwa [State.settled_sched]))

/-! ### Writes of table entries (R22 to R24, R53, R88, R94, R95, R197) -/

theorem indexIn_some {n : Nat} {i : BitVec 8} {k : Fin n} (h : i.toNat = k.val) : indexIn n i = some k := by
  refine (dif_pos (h ▸ k.isLt)).trans (congrArg some (Fin.ext h))

theorem indexIn_none {n : Nat} {i : BitVec 8} (h : n ≤ i.toNat) : indexIn n i = none := dif_neg (Nat.not_lt.2 h)

/-- The line under a new configuration goes OFF, IDLE or LIVE, with its working state cleared (R22 to R24). -/
theorem Line.written_eq (l : Line) (on : Bool) (c : LineConfig) (m : Mode) :
    (if !on then ({ l with config := c } : Line).quieted .off
      else if m = .run then ({ l with config := c } : Line).enterLive
      else ({ l with config := c } : Line).quieted .idle) =
    { l with
      config := c, established := false, level := false, qualifier := .stable, interval := 0
      window := none, quiet := none, seen := 0
      state := if on = false then .off else if m = .run then .live else .idle
      firstMark := if on && m == .run then true else l.firstMark } := by
  cases on <;> cases m <;> rfl

theorem writeLineOp_some {s : State} {n : LineNo} {on : Bool} {c : LineConfig}
    (h : ¬(on = true ∧ s.mode = .run ∧ (s.lines.get n).state ≠ .off)) :
    writeLineOp n on (some c) s = .ok { s with lines := s.lines.set n { s.lines.get n with
      config := c, established := false, level := false, qualifier := .stable, interval := 0
      window := none, quiet := none, seen := 0
      state := if on = false then .off else if s.mode = .run then .live else .idle
      firstMark := if on && s.mode == .run then true else (s.lines.get n).firstMark } } := by
  refine (if_neg (by rw [Bool.and_eq_true, Bool.and_eq_true, beq_iff_eq, bne_iff_ne, and_assoc]; exact h)).trans ?_
  exact congrArg (fun l => Except.ok (s.setLine n l)) ((s.lines.get n).written_eq on c s.mode)

/-- The claimed value after an output entry write (R94, R95). -/
theorem State.writeOut_eq (s : State) (n : OutNo) (e : OutEntry) : s.writeOut n e = { s with
    outputs := s.outputs.set n { owner := e.owner, safe := e.safe, drive := e.drive, claimed :=
      if e.owner = .reflex ∧ ((s.outputs.get n).owner ≠ .reflex ∨ (s.outputs.get n).safe ≠ e.safe) then
        (if ∃ k, (s.slots.get k).asserting = true ∧ (s.slots.get k).config.mask.getLsbD n.val = true
          then !e.safe else e.safe)
      else (s.outputs.get n).claimed } } := by
  have hvalue : s.reflexValue n e.safe =
      if ∃ k, (s.slots.get k).asserting = true ∧ (s.slots.get k).config.mask.getLsbD n.val = true
        then !e.safe else e.safe := by
    refine if_congr ?_ rfl rfl
    unfold State.assertedOn
    simp only [anyIdx_iff, Bool.and_eq_true, covers]
  unfold State.writeOut
  rw [hvalue]
  simp only [Bool.and_eq_true, Bool.or_eq_true, beq_iff_eq, bne_iff_ne]
  rfl

theorem State.quotaBreaks_iff (s : State) (g : GroupNo) (q : Quota) :
    (s.setQueue g { s.queues.get g with quota := q }).quotaBreaks g = true ↔
      512 < (sumQueues (s.queues.set g { s.queues.get g with quota := q }) fun _ x => x.quota.reserve.toNat) ∨
      q.limit.toNat < (s.queues.get g).records.length ∨
      512 - (sumQueues (s.queues.set g { s.queues.get g with quota := q }) fun _ x => x.records.length) <
        (sumQueues (s.queues.set g { s.queues.get g with quota := q }) fun _ x =>
          x.quota.reserve.toNat - x.records.length) := by
  unfold State.quotaBreaks
  simp only [Bool.or_eq_true, decide_eq_true_iff, or_assoc]
  rw [State.setQueue_queues, Bank.get_set_eq]
  exact Iff.rfl

/-- Settles O51. -/
theorem tableWritesAreChecked : Obligations.TableWritesAreChecked := by
  intro s hr u i word wide bit refused
  have no {e : RefCode} (h : writeOp u = .error e) : refused e := hostWrite_error (a := 0x72) (op := writeOp) hr h
  have ok {t : State} (h : writeOp u = .ok t) : exec .write s = .next t := hostWrite_ok (a := 0x72) (op := writeOp) hr h
  have hsel {k : TableSel} (h : s.tsel = k) : u.tsel = k := (State.settled_tsel s).trans h
  have hidx : u.tidx = s.tidx := State.settled_tidx s
  have hdata : u.tdata = s.tdata := State.settled_tdata s
  refine ⟨fun h => no ?_, fun h => no ?_, fun n ht hi => ?_, fun n ht hi => ?_, fun n ht hi => ?_, fun g ht hi => ?_⟩
  · unfold writeOp
    rcases h with h | h <;> rw [hsel h]
  · unfold writeOp
    rcases h with ⟨h, hi⟩ | ⟨h, hi⟩ | ⟨h, hi⟩ | ⟨h, hi⟩ <;> rw [hsel h, hidx] <;> simp only [indexIn_none hi]
  · intro l on busy inRange
    have hop : writeOp u = writeLineOp n (lineOn s.tdata) (lineFields s.tdata) u := by
      unfold writeOp
      rw [hsel ht, hidx, hdata]
      simp only [indexIn_some hi]
    have hon : lineOn s.tdata = on := getLsbD_get s.tdata 0 0
    have hl : u.lines.get n = l := congrArg (Bank.get · n) (State.settled_lines s)
    have hmode : u.mode = s.mode := State.settled_mode s
    have hbusy : (on && u.mode == .run && (u.lines.get n).state != .off) = true ↔ busy := by
      rw [hl, hmode, Bool.and_eq_true, Bool.and_eq_true, beq_iff_eq, bne_iff_ne, and_assoc]
    rw [hon] at hop
    refine ⟨fun h => no (hop.trans (if_pos (hbusy.2 h))), fun h hi => no (hop.trans ?_), fun h hi => ?_⟩
    · have hnone : lineFields s.tdata = none :=
        Option.eq_none_iff_forall_ne_some.2 fun c hc => hi (lineFields_iff.1 hc).inRange
      refine (if_neg (fun k => h (hbusy.1 k))).trans ?_
      rw [hnone]
    · obtain ⟨c, hc⟩ := exists_lineSpelt hi
      refine ⟨c, hc.on, hc.edge, hc.urgent, hc.filter, hc.chatterLimit, hc.chatterWindow, hc.quietTime, ok ?_⟩
      rw [hop, lineFields_iff.2 hc, writeLineOp_some (by rw [hl, hmode]; exact h), hl, hmode, State.settled_lines]
  · intro x inRange
    have hop : writeOp u = writeSlotOp n (slotFields s.tdata) u := by
      unfold writeOp
      rw [hsel ht, hidx, hdata]
      simp only [indexIn_some hi]
    have hx : u.slots.get n = x := congrArg (Bank.get · n) (State.settled_slots s)
    refine ⟨fun h => no (hop.trans (if_neg (by rwa [hx]))), fun h hi => no (hop.trans ((if_pos (by rwa [hx])).trans ?_)),
      fun h hi => ?_⟩
    · have hnone : slotFields s.tdata = none :=
        Option.eq_none_iff_forall_ne_some.2 fun c hc => hi (slotFields_iff.1 hc).inRange
      rw [hnone]
    · obtain ⟨c, hc⟩ := exists_slotSpelt hi
      refine ⟨c, hc.trigger, hc.edge, hc.gate, hc.delay, hc.width, hc.mask, hc.policy, hc.report, hc.countLimit,
        ok (hop.trans ((if_pos (by rwa [hx])).trans ?_))⟩
      rw [slotFields_iff.2 hc]
      change Except.ok (u.setSlot n { u.slots.get n with config := c }) = _
      rw [hx, State.setSlot, State.settled_slots]
  · intro o inverted
    have hrefused (h : outFields s.tdata = none) : writeOp u = .error .range := by
      unfold writeOp
      rw [hsel ht, hidx, hdata]
      simp only [indexIn_some hi, h]
    have htaken {e : OutEntry} (h : outFields s.tdata = some e) : writeOp u = .ok (u.writeOut n e) := by
      unfold writeOp
      rw [hsel ht, hidx, hdata]
      simp only [indexIn_some hi, h]
    refine ⟨fun h => no (hrefused ?_), fun h => ?_⟩
    · refine Option.eq_none_iff_forall_ne_some.2 fun e he => ?_
      have howner := (outFields_iff.1 he).owner.trans h
      revert howner
      cases e.owner <;> decide
    · obtain ⟨owner, howner⟩ := Owner.exists_number (n := wordAt s.tdata 0 % 4) (by
        have : wordAt s.tdata 0 % 4 ≠ 3 := h
        omega)
      have he : outFields s.tdata = some ⟨owner, bit 0 4, bit 0 5⟩ := outFields_iff.2 ⟨howner, rfl, rfl⟩
      refine ⟨owner, howner, ok ((htaken he).trans ?_)⟩
      rw [State.writeOut_eq, State.settled_outputs, State.settled_slots]
  · intro q inRange
    have hop : writeOp u = writeQuotaOp g (quotaFields g s.tdata) u := by
      unfold writeOp
      rw [hsel ht, hidx, hdata]
      simp only [indexIn_some hi]
    have hmode : u.mode = s.mode := State.settled_mode s
    have config (h : s.mode = .config) : ¬u.mode = .run := by rw [hmode, h]; decide
    refine ⟨fun h => no (hop.trans (if_pos (hmode.trans h))),
      fun h hi => no (hop.trans ((if_neg (config h)).trans ?_)), fun h hi => ?_⟩
    · have hnone : quotaFields g s.tdata = none :=
        Option.eq_none_iff_forall_ne_some.2 fun c hc => hi (quotaFields_iff.1 hc).1
      rw [hnone]
    · intro c qs breaks
      have hsome : quotaFields g s.tdata = some c := quotaFields_iff.2 ⟨hi, rfl⟩
      have hwrite : writeOp u = if (u.setQueue g { q with quota := c }).quotaBreaks g then .error .quota
          else .ok (u.setQueue g { q with quota := c }) := by
        refine hop.trans ((if_neg (config h)).trans ?_)
        rw [hsome]
      have hbreaks := u.quotaBreaks_iff g c
      exact ⟨fun h => no (hwrite.trans (if_pos (hbreaks.2 h))),
        fun h => ok (hwrite.trans (if_neg fun k => h (hbreaks.1 k)))⟩

end Sys2Proof.Machine
end

section
/-!
PROOFS. The words of the table entries and of the presented record, put together from their fields.
Settles O49, O50, O52.
-/
namespace Sys2Proof.Machine
-- Declarations in order: a worker that waits for the kernel holds 1 GiB of the check's memory.
set_option Elab.async false

/-! ### A buffer of words -/

theorem bufferOf_get (ws : List Word) (j : Fin 16) : (bufferOf ws).get j = ws.getD j.val 0 := Bank.get_ofFn _ _

theorem wordAt_bufferOf (ws : List Word) (j : Fin 16) : wordAt (bufferOf ws) j = (ws.getD j.val 0).toNat :=
  congrArg BitVec.toNat (bufferOf_get ws j)

theorem bufferOf_beyond {ws : List Word} {k : Nat} (h : ws.length ≤ k) (j : Fin 16) (hj : k ≤ j.val) :
    (bufferOf ws).get j = 0 := by
  rw [bufferOf_get]
  exact List.getD_eq_default _ _ (h.trans hj)

theorem low16_mid16 {m : Nat} (hm : m ≤ 32) (v : BitVec m) : (low16 v).toNat + 65536 * (mid16 v).toNat = v.toNat := by
  have := v.isLt.trans_le (Nat.pow_le_pow_right (by decide) hm)
  rw [toNat_low16, toNat_mid16]
  omega

theorem wideAt_eq {b : Buffer} {j k : Fin 16} {m : Nat} {v : BitVec m} (hm : m ≤ 32) (hj : b.get j = low16 v)
    (hk : b.get k = mid16 v) : wideAt b j k = v.toNat := by
  unfold wideAt wordAt
  rw [hj, hk, low16_mid16 hm]

theorem words48 (v : Time) : (high16 v ++ mid16 v ++ low16 v : BitVec 48) = v := timeWord_append v

theorem shiftLeft_ofNat (n k : Nat) : BitVec.ofNat 16 n <<< k = BitVec.ofNat 16 (2 ^ k * n) := by
  apply BitVec.eq_of_toNat_eq
  rw [BitVec.toNat_shiftLeft, BitVec.toNat_ofNat, BitVec.toNat_ofNat, Nat.shiftLeft_eq, Nat.mod_mul_mod, Nat.mul_comm]

theorem toNat_widen_lt {m : Nat} (h : m ≤ 16) (x : BitVec m) : (x.zeroExtend 16).toNat < 2 ^ m :=
  (toNat_widen h x).trans_lt x.isLt

/-! ### The words of a line -/

theorem EdgeSelect.toNat_code (e : EdgeSelect) : e.code.toNat = e.number := by cases e <;> rfl

theorem EdgeSelect.number_lt (e : EdgeSelect) : e.number < 4 := by cases e <;> decide

theorem toNat_lineWord (c : LineConfig) : (bitAt c.on 0 ||| c.edge.code <<< 1 ||| bitAt c.urgent 3
      ||| c.filter.zeroExtend 16 <<< 4 ||| c.chatterLimit.zeroExtend 16 <<< 8).toNat =
    (if c.on then 2 ^ 0 else 0) + 2 * c.edge.number + (if c.urgent then 2 ^ 3 else 0) + 16 * c.filter.toNat +
      256 * c.chatterLimit.toNat := by
  have hedge : c.edge.code.toNat < 2 ^ 2 := c.edge.toNat_code ▸ c.edge.number_lt
  have hfilter : (c.filter.zeroExtend 16).toNat = c.filter.toNat := toNat_widen (by decide) _
  have hlimit : (c.chatterLimit.zeroExtend 16).toNat = c.chatterLimit.toNat := toNat_widen (by decide) _
  have h := (((((Packs.bitZero c.on).field 1 2 (by decide) hedge (by decide)).bit c.urgent 3 (by decide)
    (by decide)).field 4 4 (by decide) (toNat_widen_lt (by decide) c.filter) (by decide)).field 8 8 (by decide)
    (toNat_widen_lt (by decide) c.chatterLimit) (by decide)).1
  rw [h, hfilter, hlimit, c.edge.toNat_code, bit_eq_toNat, bit_eq_toNat]
  omega

def LineState.number : LineState → Nat
  | .off => 0
  | .idle => 1
  | .live => 2
  | .suppressed => 3

theorem LineState.toNat_code (x : LineState) : x.code.toNat = x.number := by cases x <;> rfl

/-- The qualifier of a line in its status word. -/
def Qualifier.number : Qualifier → Nat
  | .stable => 0
  | .pending v _ k => 8 + (if v then 2 ^ 4 else 0) + 32 * (k % 2048)

theorem toNat_lineStatus (l : Line) : l.statusWord.toNat =
    l.state.number + (if l.level then 2 ^ 2 else 0) + l.qualifier.number := by
  have hstate : l.state.code.toNat < 2 ^ 2 := by cases l.state <;> decide
  have hbase := (Packs.zero hstate).bit l.level 2 (by decide) (by decide)
  unfold Line.statusWord
  rw [← l.state.toNat_code, bit_eq_toNat]
  cases l.qualifier with
  | stable => exact (congrArg BitVec.toNat (BitVec.or_zero)).trans hbase.1
  | pending v o k =>
    have hk : (BitVec.ofNat 16 (k % 2048)).toNat = k % 2048 := by
      rw [BitVec.toNat_ofNat]
      omega
    have hcount : BitVec.ofNat 16 (32 * k) = BitVec.ofNat 16 (k % 2048) <<< 5 := by
      rw [shiftLeft_ofNat]
      apply BitVec.eq_of_toNat_eq
      rw [BitVec.toNat_ofNat, BitVec.toNat_ofNat]
      omega
    have h := (((hbase.bit true 3 (by decide) (by decide)).bit v 4 (by decide) (by decide)).field
      (y := BitVec.ofNat 16 (k % 2048)) 5 11 (by decide) (by rw [hk]; omega) (by decide)).1
    simp only [hcount, ← BitVec.or_assoc]
    rw [h, hk, Qualifier.number, bit_eq_toNat, Bool.toNat_true]
    omega

/-- The words of a line entry by its fields. -/
structure LineShown (b : Buffer) (l : Line) : Prop where
  settings : wordAt b 0 = (if l.config.on then 2 ^ 0 else 0) + 2 * l.config.edge.number +
    (if l.config.urgent then 2 ^ 3 else 0) + 16 * l.config.filter.toNat + 256 * l.config.chatterLimit.toNat
  chatterWindow : wideAt b 1 2 = l.config.chatterWindow.toNat
  quietTime : wideAt b 3 4 = l.config.quietTime.toNat
  status : wordAt b 5 = l.state.number + (if l.level then 2 ^ 2 else 0) + l.qualifier.number
  lastOnset : (b.get 8 ++ b.get 7 ++ b.get 6 : BitVec 48) = l.lastOnset
  beyond : ∀ j : Fin 16, 9 ≤ j.val → b.get j = 0

theorem Line.shown (l : Line) : LineShown (bufferOf l.words) l where
  settings := (wordAt_bufferOf l.words 0).trans (toNat_lineWord l.config)
  chatterWindow := wideAt_eq (by decide) (bufferOf_get l.words 1) (bufferOf_get l.words 2)
  quietTime := wideAt_eq (by decide) (bufferOf_get l.words 3) (bufferOf_get l.words 4)
  status := (wordAt_bufferOf l.words 5).trans (toNat_lineStatus l)
  lastOnset := by
    rw [bufferOf_get, bufferOf_get, bufferOf_get]
    exact words48 l.lastOnset
  beyond := bufferOf_beyond (ws := l.words) (Nat.le_refl 9)

/-! ### The words of a slot -/

theorem TriggerEdge.toNat_code (e : TriggerEdge) : e.code.toNat = e.number := by cases e <;> rfl

theorem TriggerEdge.number_lt (e : TriggerEdge) : e.number < 4 := by cases e <;> decide

theorem Retrigger.toNat_code (e : Retrigger) : e.code.toNat = e.number := by cases e <;> rfl

/-- The gate of a slot in its first word. -/
def gateNumber : Option Gate → Nat
  | none => 0
  | some g => 256 + 512 * g.line.val + if g.level then 2 ^ 15 else 0

theorem toNat_slotWord (c : SlotConfig) :
    (BitVec.ofNat 16 c.trigger.val ||| c.edge.code <<< 6 ||| gateBits c.gate).toNat =
      c.trigger.val + 64 * c.edge.number + gateNumber c.gate := by
  have htrigger : (BitVec.ofNat 16 c.trigger.val).toNat = c.trigger.val := by
    rw [BitVec.toNat_ofNat]
    omega
  have hedge : c.edge.code.toNat < 2 ^ 2 := c.edge.toNat_code ▸ c.edge.number_lt
  have hbase := (Packs.zero (k := 6) (htrigger ▸ c.trigger.isLt)).field 6 2 (by decide) hedge (by decide)
  rw [htrigger, c.edge.toNat_code] at hbase
  cases c.gate with
  | none => exact (congrArg BitVec.toNat (BitVec.or_zero)).trans hbase.1
  | some g =>
    have hline : (BitVec.ofNat 16 g.line.val).toNat = g.line.val := by
      rw [BitVec.toNat_ofNat]
      omega
    have h := (((hbase.bit true 8 (by decide) (by decide)).field (y := BitVec.ofNat 16 g.line.val) 9 6 (by decide)
      (hline.trans_lt g.line.isLt) (by decide)).bit g.level 15 (by decide) (by decide)).1
    rw [shiftLeft_ofNat] at h
    simp only [gateBits, ← BitVec.or_assoc]
    refine h.trans ?_
    rw [hline, gateNumber, bit_eq_toNat, Bool.toNat_true]
    omega

theorem toNat_slotPolicyWord (c : SlotConfig) :
    (c.policy.code ||| bitAt c.report 2 ||| c.countLimit.zeroExtend 16 <<< 8).toNat =
      c.policy.number + (if c.report then 2 ^ 2 else 0) + 256 * c.countLimit.toNat := by
  have hpolicy : c.policy.code.toNat < 2 ^ 2 := by cases c.policy <;> decide
  have hlimit : (c.countLimit.zeroExtend 16).toNat = c.countLimit.toNat := toNat_widen (by decide) _
  have h := (((Packs.zero hpolicy).bit c.report 2 (by decide) (by decide)).field 8 8 (by decide)
    (toNat_widen_lt (by decide) c.countLimit) (by decide)).1
  rw [h, hlimit, c.policy.toNat_code, bit_eq_toNat]
  rfl

def SlotState.number : SlotState → Nat
  | .disarmed => 0
  | .armed => 1
  | .delaying => 2
  | .active => 3
  | .holding => 4

theorem SlotState.toNat_code (x : SlotState) : x.code.toNat = x.number := by cases x <;> rfl

/-- The words of a slot by its fields. -/
structure SlotShown (b : Buffer) (x : Slot) : Prop where
  trigger : wordAt b 0 = x.config.trigger.val + 64 * x.config.edge.number + gateNumber x.config.gate
  delay : wideAt b 1 2 = x.config.delay.toNat
  width : wideAt b 3 4 = x.config.width.toNat
  mask : wideAt b 5 6 = x.config.mask.toNat
  policy : wordAt b 7 = x.config.policy.number + (if x.config.report then 2 ^ 2 else 0) +
    256 * x.config.countLimit.toNat
  state : wordAt b 8 = x.state.number
  firings : b.get 9 = x.firings
  beyond : ∀ j : Fin 16, 10 ≤ j.val → b.get j = 0

theorem Slot.shown (x : Slot) : SlotShown (bufferOf x.words) x where
  trigger := (wordAt_bufferOf x.words 0).trans (toNat_slotWord x.config)
  delay := wideAt_eq (by decide) (bufferOf_get x.words 1) (bufferOf_get x.words 2)
  width := wideAt_eq (by decide) (bufferOf_get x.words 3) (bufferOf_get x.words 4)
  mask := wideAt_eq (by decide) (bufferOf_get x.words 5) (bufferOf_get x.words 6)
  policy := (wordAt_bufferOf x.words 7).trans (toNat_slotPolicyWord x.config)
  state := (wordAt_bufferOf x.words 8).trans x.state.toNat_code
  firings := bufferOf_get x.words 9
  beyond := bufferOf_beyond (ws := x.words) (Nat.le_refl 10)

/-! ### The words of an output line -/

theorem Owner.toNat_code (o : Owner) : o.code.toNat = o.number := by cases o <;> rfl

theorem toNat_outWord (o : OutLine) : (o.owner.code ||| bitAt o.safe 4 ||| bitAt o.drive 5).toNat =
    o.owner.number + (if o.safe then 2 ^ 4 else 0) + if o.drive then 2 ^ 5 else 0 := by
  have howner : o.owner.code.toNat < 2 ^ 4 := by cases o.owner <;> decide
  have h := (((Packs.zero howner).bit o.safe 4 (by decide) (by decide)).bit o.drive 5 (by decide) (by decide)).1
  rw [h, o.owner.toNat_code, bit_eq_toNat, bit_eq_toNat]

theorem toNat_outValues (a b : Bool) : (bitAt a 0 ||| bitAt b 1).toNat =
    (if a then 2 ^ 0 else 0) + if b then 2 ^ 1 else 0 := by
  cases a <;> cases b <;> rfl

/-! ### The words of a schedule entry -/

def Action.number : Action → Nat
  | .set => 0
  | .clear => 1
  | .toggle => 2
  | .write _ => 3

theorem Action.toNat_code (a : Action) : a.code.toNat = a.number := by cases a <;> rfl

theorem Action.number_lt (a : Action) : a.number < 4 := by cases a <;> simp [Action.number]

theorem toNat_entryWord (e : Entry) :
    (e.action.code ||| bitAt e.rep.isSome 4 ||| bitAt e.report 5 ||| bitAt (e.late == .skip) 6).toNat =
      e.action.number + (if e.rep.isSome then 2 ^ 4 else 0) + (if e.report then 2 ^ 5 else 0) +
        if decide (e.late = .skip) then 2 ^ 6 else 0 := by
  have haction : e.action.code.toNat < 2 ^ 4 := by
    have := e.action.number_lt
    rw [e.action.toNat_code]
    omega
  have h := ((((Packs.zero haction).bit e.rep.isSome 4 (by decide) (by decide)).bit e.report 5 (by decide)
    (by decide)).bit (e.late == .skip) 6 (by decide) (by decide)).1
  rw [h, e.action.toNat_code, bit_eq_toNat, bit_eq_toNat, bit_eq_toNat]
  rfl

def repPeriod : Option Rep → Nat
  | none => 0
  | some r => r.period.toNat

def repCount : Option Rep → Nat
  | none => 0
  | some r => r.count.toNat

def Action.valueNumber : Action → Nat
  | .write v => v.toNat
  | _ => 0

/-- The words of a schedule entry by its fields. -/
structure EntryShown (b : Buffer) (e : Entry) : Prop where
  due : (b.get 2 ++ b.get 1 ++ b.get 0 : BitVec 48) = e.due
  tag : b.get 3 = e.tag
  settings : wordAt b 4 = e.action.number + (if e.rep.isSome then 2 ^ 4 else 0) + (if e.report then 2 ^ 5 else 0) +
    if decide (e.late = .skip) then 2 ^ 6 else 0
  mask : wideAt b 5 6 = e.mask.toNat
  value : wideAt b 7 8 = e.action.valueNumber
  period : wideAt b 9 10 = repPeriod e.rep
  count : wordAt b 11 = repCount e.rep

theorem EntryShown.of_words {b : Buffer} {e : Entry}
    (h : ∀ j : Fin 16, j.val < 12 → b.get j = e.words.getD j.val 0) : EntryShown b e where
  due := by
    rw [h 0 (by decide), h 1 (by decide), h 2 (by decide)]
    exact words48 e.due
  tag := h 3 (by decide)
  settings := (congrArg BitVec.toNat (h 4 (by decide))).trans (toNat_entryWord e)
  mask := wideAt_eq (by decide) (h 5 (by decide)) (h 6 (by decide))
  value := by
    rw [wideAt_eq (v := e.action.value) (by decide) (h 7 (by decide)) (h 8 (by decide))]
    cases e.action <;> rfl
  period := by
    have h9 := h 9 (by decide)
    have h10 := h 10 (by decide)
    cases hr : e.rep with
    | none =>
      unfold wideAt wordAt
      rw [h9, h10]
      simp only [Entry.words, hr]
      rfl
    | some r =>
      refine wideAt_eq (v := r.period) (by decide) (h9.trans ?_) (h10.trans ?_) <;>
        simp only [Entry.words, hr] <;> rfl
  count := by
    refine (congrArg BitVec.toNat (h 11 (by decide))).trans ?_
    simp only [Entry.words]
    cases e.rep <;> rfl

theorem Entry.shown (e : Entry) : EntryShown (bufferOf e.words) e := .of_words fun j _ => bufferOf_get e.words j

theorem Entry.shown_staged (e : Entry) : EntryShown (bufferOf (StagedOp.insert e).words) e :=
  .of_words fun j hj => (bufferOf_get _ j).trans (List.getD_append e.words [1] 0 j.val hj)

/-! ### What READ gives (R195, R196) -/

section
variable {s : State}

theorem State.readEntry_line (h : s.tsel = .line) :
    s.readEntry = (indexIn 64 s.tidx).map fun n => (s.lines.get n).words := by
  unfold State.readEntry
  rw [h]

theorem State.readEntry_reflex (h : s.tsel = .reflex) :
    s.readEntry = (indexIn 16 s.tidx).map fun i => (s.slots.get i).words := by
  unfold State.readEntry
  rw [h]

theorem State.readEntry_output (h : s.tsel = .output) :
    s.readEntry = (indexIn 32 s.tidx).map fun n => s.outWords n := by
  unfold State.readEntry
  rw [h]

theorem State.readEntry_quota (h : s.tsel = .quota) :
    s.readEntry = (indexIn 9 s.tidx).map fun g => (s.queues.get g).words := by
  unfold State.readEntry
  rw [h]

theorem State.readEntry_stage (h : s.tsel = .stage) :
    s.readEntry = some ((s.sched.staging[s.tidx.toNat]?.map StagedOp.words).getD []) := by
  unfold State.readEntry
  rw [h]
  cases s.sched.staging[s.tidx.toNat]? <;> rfl

theorem State.readEntry_sched (h : s.tsel = .sched) :
    s.readEntry = some ((s.sched.active[s.tidx.toNat]?.map fun a => a.entry.words).getD []) := by
  unfold State.readEntry
  rw [h]
  cases s.sched.active[s.tidx.toNat]? <;> rfl

end

def Policy.number : Policy → Nat
  | .dropNew => 0
  | .dropOldest => 1

theorem wordAt_policy (q : Queue) : wordAt (bufferOf q.words) 2 = q.quota.policy.number := by
  rw [wordAt_bufferOf]
  obtain ⟨_, _, _, _, _, _, policy, _, _⟩ := q
  cases policy <;> rfl

/-- Settles O50. -/
theorem tableReadFillsTheBuffer : Obligations.TableReadFillsTheBuffer := by
  intro s hr i fills outside word wide zeroFrom bit entry
  have hsel {k : TableSel} (h : s.tsel = k) : s.settled.tsel = k := (State.settled_tsel s).trans h
  have hidx : s.settled.tidx = s.tidx := State.settled_tidx s
  have out (h : s.settled.readEntry = none) : outside :=
    hostWrite_error (a := 0x72) (op := readOp) hr (by rw [readOp, h])
  have fill {ws : List Word} {p : Bank Word 16 → Prop} (h : s.settled.readEntry = some ws) (hp : p (bufferOf ws)) :
      fills p :=
    ⟨bufferOf ws, hostWrite_ok (a := 0x72) (op := readOp) hr (by rw [readOp, h]), hp⟩
  have shown {b : Buffer} {e : Entry} (h : EntryShown b e) : entry e b :=
    ⟨h.due, h.tag, h.settings, h.mask, h.value, h.period, h.count⟩
  refine ⟨fun ht => ⟨fun hi => out ?_, fun n hi => fill (ws := (s.lines.get n).words) ?_ ?_⟩,
    fun ht => ⟨fun hi => out ?_, fun n hi => fill (ws := (s.slots.get n).words) ?_ ?_⟩,
    fun ht => ⟨fun hi => out ?_, fun n hi => fill (ws := s.outWords n) ?_ ?_⟩,
    fun ht => ⟨fun hi => out ?_, fun g hi => fill (ws := (s.settled.queues.get g).words) ?_ ?_⟩,
    fun ht => ⟨fun hi => fill (ws := []) ?_ ?_, fun o ho => fill (ws := o.words) ?_ ?_⟩,
    fun ht => ⟨fun hi => fill (ws := []) ?_ ?_, fun a ha => fill (ws := a.entry.words) ?_ ?_⟩⟩
  · rw [State.readEntry_line (hsel ht), hidx, indexIn_none hi]
    rfl
  · rw [State.readEntry_line (hsel ht), hidx, indexIn_some hi, State.settled_lines]
    rfl
  · have h := (s.lines.get n).shown
    exact ⟨h.settings, h.chatterWindow, h.quietTime, h.status, h.lastOnset, h.beyond⟩
  · rw [State.readEntry_reflex (hsel ht), hidx, indexIn_none hi]
    rfl
  · rw [State.readEntry_reflex (hsel ht), hidx, indexIn_some hi, State.settled_slots]
    rfl
  · have h := (s.slots.get n).shown
    exact ⟨h.trigger, h.delay, h.width, h.mask, h.policy, h.state, h.firings, h.beyond⟩
  · rw [State.readEntry_output (hsel ht), hidx, indexIn_none hi]
    rfl
  · rw [State.readEntry_output (hsel ht), hidx, indexIn_some hi]
    unfold State.outWords
    rw [State.settled_outputs, State.settled_driven]
    rfl
  · exact ⟨(wordAt_bufferOf (s.outWords n) 0).trans (toNat_outWord _),
      (wordAt_bufferOf (s.outWords n) 1).trans (toNat_outValues _ _),
      bufferOf_beyond (ws := s.outWords n) (Nat.le_refl 2)⟩
  · rw [State.readEntry_quota (hsel ht), hidx, indexIn_none hi]
    rfl
  · rw [State.readEntry_quota (hsel ht), hidx, indexIn_some hi]
    rfl
  · intro q
    exact ⟨bufferOf_get q.words 0, bufferOf_get q.words 1,
      wordAt_policy q, bufferOf_get q.words 3,
      bufferOf_get q.words 4, (wordAt_bufferOf q.words 5).trans (BitVec.toNat_ofNat _ _),
      (wordAt_bufferOf q.words 6).trans (toNat_widen (by decide) q.pendingLoss), bufferOf_beyond (ws := q.words) (Nat.le_refl 7)⟩
  · rw [State.readEntry_stage (hsel ht), hidx, State.settled_sched, List.getElem?_eq_none hi]
    rfl
  · exact bufferOf_beyond (Nat.le_refl 0)
  · rw [State.readEntry_stage (hsel ht), hidx, State.settled_sched, ho]
    rfl
  · cases o with
    | insert e =>
      exact ⟨shown e.shown_staged, wordAt_bufferOf (StagedOp.insert e).words 12,
        bufferOf_beyond (ws := (StagedOp.insert e).words) (Nat.le_refl 13)⟩
    | cancel tag =>
      intro j
      rw [bufferOf_get]
      fin_cases j <;> rfl
    | clearAll =>
      intro j
      rw [bufferOf_get]
      fin_cases j <;> rfl
  · rw [State.readEntry_sched (hsel ht), hidx, State.settled_sched, List.getElem?_eq_none hi]
    rfl
  · exact bufferOf_beyond (Nat.le_refl 0)
  · rw [State.readEntry_sched (hsel ht), hidx, State.settled_sched, ha]
    rfl
  · exact ⟨shown a.entry.shown, bufferOf_beyond (ws := a.entry.words) (Nat.le_refl 12)⟩

/-! ### The words of an entry are taken back (R196 to R198) -/

theorem bitOf_eq {b : Buffer} {j : Fin 16} {k : Nat} {x : Bool} (h : wordAt b j / 2 ^ k % 2 = x.toNat) :
    bitOf b j k = x := by
  unfold bitOf
  rw [h]
  cases x <;> rfl

theorem LatePolicy.toNat_skip (l : LatePolicy) : (decide (l = .skip)).toNat = l.number := by cases l <;> rfl

theorem EntryShown.spelt {b : Buffer} {e : Entry} (h : EntryShown b e) (hr : e.inRange) : EntrySpelt b e := by
  obtain ⟨htag, hmask, hperiod⟩ := hr
  have hword := h.settings
  rw [bit_eq_toNat, bit_eq_toNat, bit_eq_toNat, LatePolicy.toNat_skip] at hword
  have hnumber := e.action.number_lt
  have hsome := e.rep.isSome.toNat_lt
  have hreport := e.report.toNat_lt
  have hlate : e.late.number < 2 := by cases e.late <;> decide
  have hcode : wordAt b 4 % 8 = e.action.number := by omega
  have hrep : bitOf b 4 4 = e.rep.isSome := bitOf_eq (by omega)
  refine ⟨?_, h.tag.symm, ?_, h.mask.symm, ?_, (bitOf_eq (by omega)).symm, by omega, htag, hmask⟩
  · rw [← h.due, toNat_three_words]
  · rw [hcode, h.value]
    cases e.action <;> simp [Action.Spelt, Action.number, Action.valueNumber]
  · rw [hrep, h.period, h.count]
    cases hc : e.rep with
    | none => rfl
    | some r => exact ⟨rfl, rfl, rfl, hperiod r hc⟩

theorem LineShown.spelt {b : Buffer} {l : Line} (h : LineShown b l) (hw : l.config.chatterWindow ≠ 0)
    (hq : l.config.quietTime ≠ 0) : LineSpelt b l.config := by
  have hword := h.settings
  rw [bit_eq_toNat, bit_eq_toNat] at hword
  have hon := l.config.on.toNat_lt
  have hurgent := l.config.urgent.toNat_lt
  have hedge := l.config.edge.number_lt
  have hfilter := l.config.filter.isLt
  exact ⟨(bitOf_eq (by omega)).symm, by omega, (bitOf_eq (by omega)).symm, by omega, by omega, h.chatterWindow.symm,
    h.quietTime.symm, hw, hq⟩

theorem SlotShown.spelt {b : Buffer} {x : Slot} (h : SlotShown b x) : SlotSpelt b x.config := by
  have hfirst := h.trigger
  have hpolicy := h.policy
  rw [bit_eq_toNat] at hpolicy
  have htrigger := x.config.trigger.isLt
  have hedge := x.config.edge.number_lt
  have hreport := x.config.report.toNat_lt
  have hp : x.config.policy.number < 3 := by cases x.config.policy <;> decide
  have hgate : gateNumber x.config.gate % 256 = 0 ∧ GateSpelt b x.config.gate := by
    cases hg : x.config.gate with
    | none =>
      rw [hg, gateNumber] at hfirst
      exact ⟨rfl, bitOf_eq (x := false) (by rw [Bool.toNat_false]; omega)⟩
    | some g =>
      rw [hg, gateNumber, bit_eq_toNat] at hfirst
      rw [gateNumber, bit_eq_toNat]
      have hline := g.line.isLt
      have hlevel := g.level.toNat_lt
      exact ⟨by omega, bitOf_eq (x := true) (by rw [Bool.toNat_true]; omega), by omega, (bitOf_eq (by omega)).symm⟩
  obtain ⟨hlow, hgate⟩ := hgate
  exact ⟨by omega, by omega, hgate, h.delay.symm, h.width.symm, h.mask.symm, by omega, (bitOf_eq (by omega)).symm,
    by omega⟩

theorem outSpelt_outWords (s : State) (n : OutNo) : OutSpelt (bufferOf (s.outWords n))
    ⟨(s.outputs.get n).owner, (s.outputs.get n).safe, (s.outputs.get n).drive⟩ := by
  have hword : wordAt (bufferOf (s.outWords n)) 0 = _ := (wordAt_bufferOf (s.outWords n) 0).trans (toNat_outWord _)
  rw [bit_eq_toNat, bit_eq_toNat] at hword
  have howner : (s.outputs.get n).owner.number < 3 := by cases (s.outputs.get n).owner <;> decide
  have hsafe := (s.outputs.get n).safe.toNat_lt
  have hdrive := (s.outputs.get n).drive.toNat_lt
  exact ⟨by change (s.outputs.get n).owner.number = _; omega,
    (bitOf_eq (x := (s.outputs.get n).safe) (by omega)).symm,
    (bitOf_eq (x := (s.outputs.get n).drive) (by omega)).symm⟩

theorem quotaOf_words (q : Queue) : quotaOf (bufferOf q.words) = q.quota := by
  unfold quotaOf
  rw [wordAt_policy, bufferOf_get, bufferOf_get, bufferOf_get, bufferOf_get]
  obtain ⟨_, _, _, _, _, _, policy, _, _⟩ := q
  cases policy <;> rfl

/-- Settles O52. -/
theorem tableEntriesRoundTrip : Obligations.TableEntriesRoundTrip := by
  refine ⟨fun e hr => ⟨entryFields_iff.2 (e.shown.spelt hr), entryFields_iff.2 (e.shown_staged.spelt hr)⟩,
    fun l hw hq => lineFields_iff.2 (l.shown.spelt hw hq), fun x => slotFields_iff.2 x.shown.spelt,
    fun s n => outFields_iff.2 (outSpelt_outWords s n), fun q g hrl hl1 hl2 ht1 ht2 hg => ?_⟩
  refine quotaFields_iff.2 ⟨?_, (quotaOf_words q).symm⟩
  have hpolicy : wordAt (bufferOf q.words) 2 % 4 ≤ 1 := by
    rw [wordAt_policy]
    cases q.quota.policy <;> decide
  have hreserve : wordAt (bufferOf q.words) 0 = q.quota.reserve.toNat := wordAt_bufferOf q.words 0
  have hlimit : wordAt (bufferOf q.words) 1 = q.quota.limit.toNat := wordAt_bufferOf q.words 1
  have hthreshold : wordAt (bufferOf q.words) 3 = q.quota.threshold.toNat := wordAt_bufferOf q.words 3
  unfold QuotaInRange
  rw [hreserve, hlimit, hthreshold]
  exact ⟨by omega, hg, hl1, hl2, hrl, hpolicy, ht1, ht2⟩

end Sys2Proof.Machine
end

section
/-!
PROOFS. The event record: its words in the window, and the fields of the system records.
Settles O48, O49.
-/
namespace Sys2Proof.Machine
-- Declarations in order: a worker that waits for the kernel holds 1 GiB of the check's memory.
set_option Elab.async false

/-! ### The window (R72, R199) -/

def Kind.number : Kind → Nat
  | .edge => 1
  | .level => 2
  | .action => 8
  | .reflexOn => 9
  | .reflexOff => 10
  | .commit => 11
  | .suppress => 12
  | .release => 13
  | .sync => 14
  | .freeze => 15

theorem Kind.toNat_value (k : Kind) : k.value.toNat = k.number := by cases k <;> rfl

theorem Kind.number_lt (k : Kind) : k.number < 16 := by cases k <;> decide

theorem Kind.showsInterval_iff (k : Kind) : k.showsInterval = true ↔ k = .edge ∨ k = .level := by
  rw [Kind.showsInterval, Bool.or_eq_true, beq_iff_eq, beq_iff_eq]

theorem toNat_recordWord (r : Record) :
    (r.kind.value ||| r.epoch.zeroExtend 16 <<< 4 ||| r.source.zeroExtend 16 <<< 8).toNat =
      256 * r.source.toNat + 16 * r.epoch.toNat + r.kind.number := by
  have hkind : r.kind.value.toNat < 2 ^ 4 := r.kind.toNat_value ▸ r.kind.number_lt
  have h := (((Packs.zero hkind).field 4 4 (by decide) (toNat_widen_lt (by decide) r.epoch) (by decide)).field 8 6
    (by decide) (toNat_widen_lt (by decide) r.source) (by decide)).1
  rw [h, toNat_widen (by decide), toNat_widen (by decide), r.kind.toNat_value]
  omega

/-- The gap and the flags of a record in its last window word (R199). -/
theorem gapWord_fields (gap : BitVec 8) (f : RecFlags) :
    let d := gap.zeroExtend 16 ||| f.word
    d.toNat % 256 = gap.toNat ∧ d.getLsbD 8 = f.rise ∧ d.getLsbD 9 = f.first ∧ d.getLsbD 10 = f.sat ∧
      d.getLsbD 11 = f.level ∧ d.getLsbD 12 = f.urgent ∧ d.getLsbD 13 = f.stepped ∧ d.getLsbD 14 = f.unsync ∧
      d.getLsbD 15 = f.late := by
  intro d
  have hd : d = gap.zeroExtend 16 ||| bitAt f.rise 8 ||| bitAt f.first 9 ||| bitAt f.sat 10 ||| bitAt f.level 11
      ||| bitAt f.urgent 12 ||| bitAt f.stepped 13 ||| bitAt f.unsync 14 ||| bitAt f.late 15 := by
    simp only [d, RecFlags.word, BitVec.or_assoc]
  have hpack := (((((((((Packs.zero (toNat_widen_lt (by decide) gap)).bit f.rise 8 (by decide) (by decide)).bit f.first 9
    (by decide) (by decide)).bit f.sat 10 (by decide) (by decide)).bit f.level 11 (by decide) (by decide)).bit
    f.urgent 12 (by decide) (by decide)).bit f.stepped 13 (by decide) (by decide)).bit f.unsync 14 (by decide)
    (by decide)).bit f.late 15 (by decide) (by decide)).1
  have hbits (k : Nat) (hk : 8 ≤ k) : d.getLsbD k = ((f.rise && decide (k = 8)) || (f.first && decide (k = 9)) ||
      (f.sat && decide (k = 10)) || (f.level && decide (k = 11)) || (f.urgent && decide (k = 12)) ||
      (f.stepped && decide (k = 13)) || (f.unsync && decide (k = 14)) || (f.late && decide (k = 15))) := by
    simp only [hd, BitVec.getLsbD_or, getLsbD_widen_of_le gap hk, getLsbD_bitAt _ _ _ (show 8 < 16 by decide),
      getLsbD_bitAt _ _ _ (show 9 < 16 by decide), getLsbD_bitAt _ _ _ (show 10 < 16 by decide),
      getLsbD_bitAt _ _ _ (show 11 < 16 by decide), getLsbD_bitAt _ _ _ (show 12 < 16 by decide),
      getLsbD_bitAt _ _ _ (show 13 < 16 by decide), getLsbD_bitAt _ _ _ (show 14 < 16 by decide),
      getLsbD_bitAt _ _ _ (show 15 < 16 by decide), Bool.false_or]
  refine ⟨?_, ?_, ?_, ?_, ?_, ?_, ?_, ?_, ?_⟩
  · have hgap := gap.isLt
    rw [hd, hpack, toNat_widen (by decide)]
    omega
  · rw [hbits 8 (by decide)]; simp
  · rw [hbits 9 (by decide)]; simp
  · rw [hbits 10 (by decide)]; simp
  · rw [hbits 11 (by decide)]; simp
  · rw [hbits 12 (by decide)]; simp
  · rw [hbits 13 (by decide)]; simp
  · rw [hbits 14 (by decide)]; simp
  · rw [hbits 15 (by decide)]; simp

theorem State.presentedRecord_none {s : State} {g : GroupNo} (h : (s.groups.get g).presented = none) :
    s.presentedRecord g = none := by
  unfold State.presentedRecord
  rw [h]
  rfl

theorem State.presentedRecord_some {s : State} {g : GroupNo} {w : Word} {r : Record} {rs : List Record}
    (h : (s.groups.get g).presented = some w) (hq : (s.queues.get g).records = r :: rs) :
    s.presentedRecord g = some r := by
  unfold State.presentedRecord
  rw [h, hq]
  rfl

/-- Settles O49. -/
theorem windowShowsThePresentedRecord : Obligations.WindowShowsThePresentedRecord := by
  intro s hr u win
  have hwsel : u.wsel = s.wsel := State.settled_wsel s
  have hwin (i : Fin 8) : win i.val = u.windowWord i :=
    s.readAddr_eq (BitVec.ofNat 8 (0x08 + i.val)) (.win i) rfl hr
  refine ⟨fun h i hi => (hwin ⟨i, hi⟩).trans ?_, fun w r rs h hq => ?_⟩
  · unfold State.windowWord
    rw [hwsel, State.presentedRecord_none h]
  have hword (i : Fin 8) : win i.val = r.words.getD i.val 0 := by
    rw [hwin i]
    unfold State.windowWord
    rw [hwsel, State.presentedRecord_some h hq]
  have h5 := hword 5
  have h6 := hword 6
  have h7 : win 7 = r.gap.zeroExtend 16 ||| r.flags.word := hword 7
  obtain ⟨hgap, hrise, hfirst, hsat, hlevel, hurgent, hstepped, hunsync, hlate⟩ := gapWord_fields r.gap r.flags
  refine ⟨(congrArg BitVec.toNat (hword 0)).trans (toNat_recordWord r), hword 1, ?_, fun hk => ?_, fun he hl => ?_, ?_⟩
  · rw [show win 4 = _ from hword 4, show win 3 = _ from hword 3, show win 2 = _ from hword 2]
    exact words48 r.time
  · have hshows := r.kind.showsInterval_iff.2 hk
    have hlow : win 5 = low16 r.interval := h5.trans (if_pos hshows)
    have hmid : win 6 = mid16 r.interval := h6.trans (if_pos hshows)
    apply BitVec.eq_of_toNat_eq
    rw [hlow, hmid]
    refine (toNat_append_fields (mid16 r.interval) (low16 r.interval)).trans ?_
    rw [Nat.add_comm]
    exact low16_mid16 (by decide) r.interval
  · have hno : ¬r.kind.showsInterval = true := fun hk => (r.kind.showsInterval_iff.1 hk).elim he hl
    exact ⟨h5.trans (if_neg hno), h6.trans (if_neg hno)⟩
  · rw [h7]
    exact ⟨hgap, hrise, hfirst, hsat, hlevel, hurgent, hstepped, hunsync, hlate⟩

/-! ### The system records (R19, R101, R122, R123, R136, R164, R199) -/

def SyncCode.number : SyncCode → Nat
  | .step => 1
  | .locked => 2
  | .lost => 3
  | .fault => 4

/-- The phase error in 24 bits, and the code above it, in the tag and the detail of a SYNC record. -/
theorem syncRecord_fields (x : SyncEvent) (st : Stamp) (hlo : -8388608 ≤ x.error) (hhi : x.error ≤ 8388607) :
    ((syncRecord x st).detail.extractLsb' 0 8 ++ (syncRecord x st).tag : BitVec 24).toInt = x.error ∧
      ((syncRecord x st).detail.extractLsb' 12 3).toNat = x.code.number := by
  obtain ⟨v, hv⟩ : ∃ v, BitVec.ofInt 24 x.error = v := ⟨_, rfl⟩
  have hvlt := v.isLt
  have htag : (syncRecord x st).tag.toNat = v.toNat % 65536 := by
    rw [← hv]
    refine (toNat_extract _ 0 16).trans ?_
    rw [Nat.pow_zero, Nat.div_one]
    rfl
  have hhigh : ((v.extractLsb' 16 8).zeroExtend 16).toNat = v.toNat / 65536 := by
    rw [toNat_widen (by decide), toNat_extract]
    omega
  have hcode : (x.code.value.zeroExtend 16).toNat = x.code.number := by
    rw [toNat_widen (by decide)]
    cases x.code <;> rfl
  have hnumber : x.code.number < 8 := by cases x.code <;> decide
  have hdetail : (syncRecord x st).detail.toNat = v.toNat / 65536 + 4096 * x.code.number := by
    have h := (Packs.zero (k := 8) (hhigh.trans_lt (by omega))).field (y := x.code.value.zeroExtend 16) 12 3 (by decide)
      (hcode.trans_lt hnumber) (by decide)
    rw [BitVec.or_comm, ← hv] at h
    refine h.1.trans ?_
    rw [hv, hhigh, hcode]
    rfl
  refine ⟨?_, ?_⟩
  · have hcat : ((syncRecord x st).detail.extractLsb' 0 8 ++ (syncRecord x st).tag : BitVec 24) = v := by
      apply BitVec.eq_of_toNat_eq
      rw [toNat_append_fields, toNat_field, htag, hdetail]
      omega
    rw [hcat, ← hv, BitVec.toInt_ofInt]
    exact Int.bmod_eq_of_le (by omega) (by omega)
  · rw [toNat_field, hdetail]
    omega

theorem freezeRecord_detail (release : Bool) (cs : Causes) (st : Stamp) (i : Fin 16) :
    (freezeRecord release cs st).detail.getLsbD i.val =
      ((decide (i = 0) && cs.pin) || (decide (i = 1) && cs.command) || (decide (i = 2) && cs.holdover) ||
        (decide (i = 15) && release)) := by
  simp only [freezeRecord, Causes.word, BitVec.getLsbD_or, getLsbD_bitAt _ _ _ (show 0 < 16 by decide),
    getLsbD_bitAt _ _ _ (show 1 < 16 by decide), getLsbD_bitAt _ _ _ (show 2 < 16 by decide),
    getLsbD_bitAt _ _ _ (show 15 < 16 by decide), Fin.ext_iff, Bool.and_comm]
  rfl

theorem toNat_lineTag (n : LineNo) : (lineTag n).toNat = n.val := by
  rw [lineTag, BitVec.toNat_ofNat]
  omega

theorem toNat_slotSource (i : SlotNo) : (slotSource i).toNat = i.val := by
  rw [slotSource, BitVec.toNat_ofNat]
  omega

theorem toNat_reflexOnTag (i : SlotNo) (x : Slot) (st : Stamp) : (reflexOnRecord i x st).tag.toNat =
    x.config.trigger.val + if x.edge = some true then 256 else 0 := by
  have htrigger := toNat_lineTag x.config.trigger
  have h := ((Packs.zero (k := 8) (htrigger.trans_lt (by omega))).bit (x.edge == some true) 8 (by decide)
    (by decide)).1
  refine h.trans ?_
  rw [htrigger, ← bit_eq_toNat]
  exact congrArg (x.config.trigger.val + ·) (if_congr beq_iff_eq rfl rfl)

/-- The counts, the reason and the index of the first refusal of a batch in its COMMIT record (R164). -/
theorem commitRecord_fields (x : Schedule) (st : Stamp) (ha : x.applied ≤ 255) (hr : x.removed ≤ 255)
    (hf : x.refused ≤ 64) (hi : ∀ why i, x.firstRefusal = some (why, i) → i ≤ 63) :
    (commitRecord x st).tag.toNat = 256 * x.removed + x.applied ∧
      (x.firstRefusal = none → (commitRecord x st).detail.toNat = x.refused) ∧
      ∀ why i, x.firstRefusal = some (why, i) →
        (commitRecord x st).detail.toNat = x.refused + (1024 * i + 128 * why.value) := by
  refine ⟨?_, fun h => ?_, fun why i h => ?_⟩
  · refine (toNat_append_fields (BitVec.ofNat 8 x.removed) (BitVec.ofNat 8 x.applied)).trans ?_
    rw [BitVec.toNat_ofNat, BitVec.toNat_ofNat]
    omega
  · unfold commitRecord
    rw [h]
    refine (BitVec.toNat_ofNat _ _).trans ?_
    omega
  · have hlt := hi why i h
    have hwhy : why.value < 8 := by cases why <;> decide
    unfold commitRecord
    rw [h]
    refine (toNat_append_fields (BitVec.ofNat 6 i ++ BitVec.ofNat 3 why.value) (BitVec.ofNat 7 x.refused)).trans ?_
    rw [toNat_append_fields, BitVec.toNat_ofNat, BitVec.toNat_ofNat, BitVec.toNat_ofNat]
    omega

/-- Settles O48. -/
theorem systemRecordsCarryTheirFields : Obligations.SystemRecordsCarryTheirFields := by
  refine ⟨fun x st hlo hhi => ?_, fun release cs st => ?_, fun i x st c => ?_,
    fun e n late skipped blocked frozen last st => ?_, fun s t hs h => step_stopped_unsync hs h,
    fun x st ha hr hf hi => ?_⟩
  · obtain ⟨herror, hcode⟩ := syncRecord_fields x st hlo hhi
    exact ⟨herror, hcode, rfl, rfl, rfl, rfl, rfl⟩
  · exact ⟨rfl, rfl, rfl, rfl, rfl, rfl, freezeRecord_detail release cs st⟩
  · have htrigger := x.config.trigger.isLt
    have hon := toNat_reflexOnTag i x st
    have hoff : (reflexOffRecord i x c st).tag.toNat = x.config.trigger.val := toNat_lineTag _
    refine ⟨rfl, rfl, fun r hr => ?_, ?_, rfl, by rw [hoff]; omega, by cases c <;> rfl⟩
    · rcases List.mem_pair.1 hr with rfl | rfl
      · refine ⟨toNat_slotSource i, rfl, rfl, rfl, ?_⟩
        rw [hon]
        split <;> omega
      · exact ⟨toNat_slotSource i, rfl, rfl, rfl, by rw [hoff]; omega⟩
    · rw [hon]
      split <;> omega
  · exact ⟨rfl, rfl, rfl, rfl, rfl, rfl, actionDetail_fields n late skipped blocked frozen last⟩
  · obtain ⟨htag, hnone, hsome⟩ := commitRecord_fields x st ha hr hf hi
    refine ⟨rfl, rfl, rfl, rfl, rfl, htag, ?_⟩
    cases h : x.firstRefusal with
    | none => exact hnone h
    | some p =>
      obtain ⟨why, i⟩ := p
      exact hsome why i h

end Sys2Proof.Machine
end
